-- ==== Sys2Proof/Word.lean ====
section
/-! DEFINITION. The words of the block: a command word, a byte, a pin identifier and the handle field. -/

namespace Sys2Proof

/-- One command word (R70). -/
abbrev Word := BitVec 64

/-- One byte: a serialized value, or one byte of a command word in transport (R52, R75). -/
abbrev Byte := BitVec 8

/-- A pin identifier: 16 bits, device-specific numbering (R50, R72). -/
abbrev PinId := BitVec 16

/-- The handle field `H` of a command word (R71). -/
abbrev HandleField := BitVec 4

end Sys2Proof
end

