-- ==== Sys2Proof/Syntax.lean ====
section
/-! DEFINITION. The six commands of the opcode map (R78), one constructor per row of spec/opcode_table.json. -/

namespace Sys2Proof

/-- A command. Each operand has exactly the width of its field (R72 to R77), so that no ill-formed operand can be written;
an illegal word is no command at all (R79 to R82). -/
inductive Instr where
  /-- `BIND H, PINID` (R72, R100). -/
  | bind (h : HandleField) (pinid : PinId)
  /-- `CONFIGURE H, FREQ` (R73, R101). -/
  | configure (h : HandleField) (freq : BitVec 32)
  /-- `MARK H, DUR` (R74, R121). -/
  | mark (h : HandleField) (dur : BitVec 32)
  /-- `SPACE H, DUR` (R74, R122). -/
  | space (h : HandleField) (dur : BitVec 32)
  /-- `SEND_BYTE H, VAL, DM, DZ, DO` (R75, R140). -/
  | sendByte (h : HandleField) (val : Byte) (markDur zeroDur oneDur : BitVec 16)
  /-- `REVERSE_BITS VAL` (R76, R141). -/
  | reverseBits (val : Byte)
  deriving DecidableEq, Repr

end Sys2Proof
end

