-- ==== Sys2Proof/Decode.lean ====
section
/-! DEFINITION. The decoder of R82, total on every word and on every list of bytes, the opcode table of R78, and after
them the encoder, written from the same formats (R72 to R76). -/

namespace Sys2Proof

/-- Why a word or a list of bytes is no command. -/
inductive DecodeError where
  /-- `OP` is 0x0 or 0x7 to 0xF (R79). -/
  | reservedOpcode
  /-- `OP` is legal and a reserved bit is 1 (R80). -/
  | reservedBits
  /-- The bytes are not the eight bytes of one word: the port admits no partial word (R54). -/
  | partialWord
  deriving DecidableEq, Repr

/-- The field `w[lo + len - 1 : lo]`, unsigned (R7, R77). -/
def bits (w : Word) (lo len : Nat) : BitVec len := w.extractLsb' lo len

/-- `w[63:60]` (R71). -/
def opField (w : Word) : BitVec 4 := bits w 60 4

/-- `w[59:56]` (R71). -/
def handleField (w : Word) : HandleField := bits w 56 4

/-- A command when the reserved bits are all 0 (R80). -/
def ifReservedZero (reservedZero : Bool) (i : Instr) : Except DecodeError Instr :=
  if reservedZero then .ok i else .error .reservedBits

/-- The decoder of R82. -/
def decode (w : Word) : Except DecodeError Instr :=
  if opField w = 1 then ifReservedZero (bits w 16 40 == 0) (.bind (handleField w) (bits w 0 16))
  else if opField w = 2 then ifReservedZero (bits w 32 24 == 0) (.configure (handleField w) (bits w 0 32))
  else if opField w = 3 then ifReservedZero (bits w 32 24 == 0) (.mark (handleField w) (bits w 0 32))
  else if opField w = 4 then ifReservedZero (bits w 32 24 == 0) (.space (handleField w) (bits w 0 32))
  else if opField w = 5 then .ok (.sendByte (handleField w) (bits w 48 8) (bits w 32 16) (bits w 16 16) (bits w 0 16))
  else if opField w = 6 then ifReservedZero (bits w 8 52 == 0) (.reverseBits (bits w 0 8))
  else .error .reservedOpcode

/-- One row of the opcode map: `w` selects it when `w AND mask = pattern` (R78). -/
structure OpRow where
  mnemonic : String
  pattern  : Word
  mask     : Word
  deriving DecidableEq, Repr

/-- A word selects a row (R78). -/
def OpRow.selects (r : OpRow) (w : Word) : Bool := w &&& r.mask == r.pattern

/-- The row of a command's constructor in the opcode map (R78). -/
def opRow : Instr → OpRow
  | .bind _ _ => ⟨"BIND", 0x1000000000000000#64, 0xF0FFFFFFFFFF0000#64⟩
  | .configure _ _ => ⟨"CONFIGURE", 0x2000000000000000#64, 0xF0FFFFFF00000000#64⟩
  | .mark _ _ => ⟨"MARK", 0x3000000000000000#64, 0xF0FFFFFF00000000#64⟩
  | .space _ _ => ⟨"SPACE", 0x4000000000000000#64, 0xF0FFFFFF00000000#64⟩
  | .sendByte _ _ _ _ _ => ⟨"SEND_BYTE", 0x5000000000000000#64, 0xF000000000000000#64⟩
  | .reverseBits _ => ⟨"REVERSE_BITS", 0x6000000000000000#64, 0xFFFFFFFFFFFFFF00#64⟩

/-- The six rows of the opcode map (R78). -/
def opTable : List OpRow :=
  [opRow (.bind 0 0), opRow (.configure 0 0), opRow (.mark 0 0), opRow (.space 0 0), opRow (.sendByte 0 0 0 0 0),
   opRow (.reverseBits 0)]

/-- Byte `k` of a word in transport: bits `[8k+7 : 8k]` (R52). -/
def byteOfWord (w : Word) (k : Nat) : Byte := bits w (8 * k) 8

/-- A word as the eight bytes of its transport, little-endian (R52). -/
def bytesOfWord (w : Word) : List Byte := (List.range 8).map (byteOfWord w)

/-- The natural number that bytes stand for, little-endian (R52). -/
def littleEndian : List Byte → Nat
  | [] => 0
  | b :: bs => b.toNat + 256 * littleEndian bs

/-- The word that eight bytes carry; no other number of bytes carries one (R52, R54). -/
def wordOfBytes (bs : List Byte) : Option Word :=
  if bs.length = 8 then some (BitVec.ofNat 64 (littleEndian bs)) else none

/-- The command that bytes on the transport carry (R52, R54, R82). -/
def decodeBytes (bs : List Byte) : Except DecodeError Instr :=
  match wordOfBytes bs with
  | some w => decode w
  | none => .error .partialWord

/-- The command that the decoder reads from a word of the opcode table's numbering: its bytes in transport order are
given to the decoder. Every row of the table has 64 bits (R70); bits at and above `nbits` are 0. -/
def decodeTableWord (nbits w : Nat) : Option Instr :=
  if nbits ≤ 64 then (decodeBytes (bytesOfWord (BitVec.ofNat 64 (w % 2 ^ nbits)))).toOption else none

/-- The word of a command, from the formats of R72 to R76. -/
def encode : Instr → Word
  | .bind h pinid => 1#4 ++ h ++ 0#40 ++ pinid
  | .configure h freq => 2#4 ++ h ++ 0#24 ++ freq
  | .mark h dur => 3#4 ++ h ++ 0#24 ++ dur
  | .space h dur => 4#4 ++ h ++ 0#24 ++ dur
  | .sendByte h val m z o => 5#4 ++ h ++ val ++ m ++ z ++ o
  | .reverseBits val => 6#4 ++ 0#52 ++ val

end Sys2Proof
end

