-- ==== Sys2Proof/Config.lean ====
section
/-! DEFINITION. What a platform fixes (R6): the parameters as plain data, the reference instance of the spec's test
vectors (decisions D8, D9), and the constants that the source itself gives. -/

namespace Sys2Proof

/-- A compare channel `(t, c)`: the timer's id and the channel's id on it (R3). -/
structure Chan where
  timer   : Nat
  channel : Nat
  deriving DecidableEq, Repr

/-- The counting scheme `SLOPE` (R6): single-slope is 1 tick per top value in a period, dual-slope is 2. -/
inductive Slope where
  | single
  | dual
  deriving DecidableEq, Repr

/-- One member `t` of `TIMERS` with `TIMER_WIDTH(t)` and `CHANNELS(t)` (R6). -/
structure TimerDesc where
  id       : Nat
  width    : Nat
  channels : List Nat
  deriving DecidableEq, Repr

/-- The parameters of one platform (R6): fixed for it, never changed during a run. -/
structure Platform where
  /-- `F_CLK`, in Hz. -/
  fClk       : Nat
  /-- `SLOPE`. -/
  slope      : Slope
  /-- `NUM_HANDLES`. -/
  numHandles : Nat
  /-- `TIMERS`, `TIMER_WIDTH` and `CHANNELS`. -/
  timers     : List TimerDesc
  /-- `PIN_MAP`: a pin without an entry is unsupported. -/
  pinMap     : List (PinId × Chan)
  deriving DecidableEq, Repr

/-- The reference instance of the spec's test vectors (decisions D8 and D9): the spec's fixture, not a device's table
(GK2, GK3). PRESUMED as the platform of `State.reset`: notes/assumptions/1.md. -/
def Platform.reference : Platform where
  fClk := 16000000
  slope := .dual
  numHandles := 2
  timers := [⟨1, 16, [0, 1]⟩, ⟨2, 8, [0, 1]⟩]
  pinMap := [(3#16, ⟨2, 1⟩), (9#16, ⟨1, 0⟩), (10#16, ⟨1, 1⟩)]

namespace Config

/-- `FINE_LIMIT`: the smallest duration, in µs, that takes the coarse wait (R6). -/
abbrev fineLimit : Nat := 16383

/-- `COARSE_DIV`: µs per coarse wait unit (R6). -/
abbrev coarseDiv : Nat := 1000

/-- `DUTY_DIV`: the compare register is `TOP div DUTY_DIV` (R6). -/
abbrev dutyDiv : Nat := 3

/-- `BYTE_BITS`: bits per serialized byte (R6). -/
abbrev byteBits : Nat := 8

end Config

end Sys2Proof
end

