-- ==== Sys2Proof/Machine/RegMap.lean ====
section
/-! DEFINITION. A register file over identifiers (handles, timers, channels, pins) as a sparse list of registers in one
canonical form: keys strictly rising, and no entry equal to what an unlisted register holds. Equal files are equal lists. -/

namespace Sys2Proof.Machine

/-- A register file: the registers that do not hold their reset value, by key. -/
abbrev RegMap (κ β : Type) := List (κ × β)

/-- The value of register `k`; an unlisted register holds `d`. -/
def regGet {κ β : Type} [DecidableEq κ] (d : β) : RegMap κ β → κ → β
  | [], _ => d
  | e :: m, k => if e.1 = k then e.2 else regGet d m k

/-- The file without an entry for `k`. -/
def regErase {κ β : Type} [DecidableEq κ] (m : RegMap κ β) (k : κ) : RegMap κ β :=
  m.filter fun e => decide (e.1 ≠ k)

/-- The file with an entry for `k`, put before the first greater key. -/
def regInsert {κ β : Type} (lt : κ → κ → Bool) (k : κ) (v : β) : RegMap κ β → RegMap κ β
  | [] => [(k, v)]
  | e :: m => if lt k e.1 then (k, v) :: e :: m else e :: regInsert lt k v m

/-- The file after `k <- v`. Writing what an unlisted register holds removes the entry. -/
def regSet {κ β : Type} [DecidableEq κ] [DecidableEq β] (lt : κ → κ → Bool) (d : β) (m : RegMap κ β) (k : κ) (v : β) :
    RegMap κ β :=
  if v = d then regErase m k else regInsert lt k v (regErase m k)

/-- The canonical form of a register file. -/
abbrev regWf {κ β : Type} [DecidableEq β] (lt : κ → κ → Bool) (d : β) (m : RegMap κ β) : Prop :=
  m.Pairwise (fun a b => lt a.1 b.1 = true) ∧ ∀ e ∈ m, e.2 ≠ d

end Sys2Proof.Machine
end

