-- ==== Sys2Proof/Machine/State.lean ====
section
/-! DEFINITION. The state of one block as plain data (the record of R20), the reasons a step can stop, and the state
after reset (R190). -/

namespace Sys2Proof.Machine

/-- `MODE[t]` (R26): `STOPPED` = 0, `CARRIER` = 1. The values 2 and 3 are reserved and never written (U13). -/
inductive Mode where
  | stopped
  | carrier
  deriving DecidableEq, Repr

/-- `DIR[p]` (R31): `IN` = 0, `OUT` = 1. -/
inductive Dir where
  | inp
  | out
  deriving DecidableEq, Repr

/-- The status codes (R161). -/
inductive Status where
  | ok
  | illegalCommand
  | badHandle
  | notBound
  | alreadyBound
  | pinInUse
  | unsupportedPin
  | freqRange
  deriving DecidableEq, Repr

/-- `RESP` (R35). -/
structure Resp where
  status : BitVec 4
  data   : Byte
  deriving DecidableEq, Repr

/-- The reason of a fault record (R37, R169). -/
inductive FaultReason where
  | notConfigured
  deriving DecidableEq, Repr

/-- The content of `FAULT` (R37): the reason and the index of the faulting command. -/
structure FaultRecord where
  reason : FaultReason
  cpc    : Nat
  deriving DecidableEq, Repr

/-- The kind of a wait (R38): carrier on or carrier off. -/
inductive WaitKind where
  | mark
  | space
  deriving DecidableEq, Repr

/-- The path of a wait (R38, R120). -/
inductive WaitPath where
  | fine
  | coarse
  deriving DecidableEq, Repr

/-- One event of the pulse train (R38). -/
structure Event where
  idx   : Nat
  h     : Nat
  pin   : PinId
  kind  : WaitKind
  dur   : Nat
  path  : WaitPath
  units : Nat
  deriving DecidableEq, Repr

/-- Which agent moves (R34, R58): the command sequencer, or the tick step of one timer. DESIGN CHOICE:
notes/assumptions/3.md. -/
inductive Turn where
  | command
  | tick (t : Nat)
  deriving DecidableEq, Repr

/-- The state of one block (R20), with three fields of the model's own: the platform it is built for (R6), the host's
command stream (R22, R201) and the interleaving of its agents (R34). -/
structure State where
  /-- The parameters of R6; no step writes them. DESIGN CHOICE: notes/assumptions/1.md. -/
  platform : Platform
  /-- The command stream `w[0..n-1]`, which no step writes (R61). DESIGN CHOICE: notes/assumptions/2.md. -/
  stream   : List Word
  /-- Which agent moves at the next steps; after them the command sequencer. DESIGN CHOICE: notes/assumptions/3.md. -/
  turns    : List Turn
  /-- `cpc` (R22). -/
  cpc      : Nat
  /-- `BOUND[h]` (R24); unlisted: false. -/
  bound    : RegMap Nat Bool
  /-- `PIN[h]` (R24); unlisted: no value. -/
  pin      : RegMap Nat (Option PinId)
  /-- `CFG[h]` (R25); unlisted: false. -/
  cfg      : RegMap Nat Bool
  /-- `MODE[t]` (R26); unlisted: `STOPPED`. -/
  mode     : RegMap Nat Mode
  /-- `TOP[t]` (R27); unlisted: no value. -/
  top      : RegMap Nat (Option Nat)
  /-- `PHASE[t]` (R28); unlisted: 0. -/
  phase    : RegMap Nat Nat
  /-- `CMP[t][c]` (R29); unlisted: no value. -/
  cmp      : RegMap Chan (Option Nat)
  /-- `EN[t][c]` (R30), true = 1; unlisted: 0. -/
  en       : RegMap Chan Bool
  /-- `DIR[p]` (R31); unlisted: `IN`. -/
  dir      : RegMap PinId Dir
  /-- `LATCH[p]` (R32), true = 1 = high; unlisted: 0. -/
  latch    : RegMap PinId Bool
  /-- `RESP` (R35). -/
  resp     : Resp
  /-- `ERRLOG` (R36): a set, listed in the order of the codes. -/
  errlog   : List Status
  /-- `FAULT` (R37). -/
  fault    : Option FaultRecord
  /-- `TRACE` (R38), oldest event first. -/
  trace    : List Event
  deriving DecidableEq, Repr

/-- Why a step stops with a fault. The fault `NOT_CONFIGURED` of a command is not one of these: its entry is a next state
(R172). -/
inductive Fault where
  /-- Raised by `step` when the command sequencer has the turn in the faulted state: "the faulted state has no command
  step" (R172). Safe. -/
  | blockStopped
  /-- Raised by `BIND`, `CONFIGURE`, `MARK`, `SPACE` and `SEND_BYTE` where a bound handle's `PIN` is read and holds no value:
  "A model that does reach such a read must fault, not pick a value" (R39; U15, D25); no run from reset reaches it. Safe. -/
  | unwrittenPin
  /-- Raised by the pin output and the tick step where `TOP` is read and holds no value: "Reading an unwritten `TOP` is a
  model fault, not a value" (R27; R39, U15, D25); no run from reset reaches it. Safe. -/
  | unwrittenTop
  /-- Raised by the pin output where `CMP` is read and holds no value: "A model that does reach such a read must fault, not
  pick a value" (R39; R29, U15, D25); no run from reset reaches it. Safe. -/
  | unwrittenCmp
  /-- Raised by `MARK`, `SPACE` and `SEND_BYTE` in a state where `CFG` is set for a handle whose pin has no `PIN_MAP` entry:
  the spec says `CFG[h]` implies a mapping (R121), and no run from reset reaches it. Safe. -/
  | unmappedPin
  /-- Raised by the tick step where the period `SLOPE * TOP` is 0: the remainder of R34 is not defined there, and `TOP` is
  at least 3 in every run (R27, R103). Safe. -/
  | zeroPeriod
  deriving DecidableEq, Repr

/-- Why a step is refused. -/
inductive Refusal where
  /-- An instruction without a meaning; no arm of `exec` answers it in this model. Safe. -/
  | notModelled (mnemonic : String)
  /-- Raised by `step` on a platform that is not well formed: "A model refuses a platform whose instance is not well
  formed" (R106, U20). Safe. -/
  | illFormedPlatform
  deriving DecidableEq, Repr

/-- The block right after reset on platform `P` (R190), before the run of the command stream `ws` with the agents'
interleaving `ts`. -/
def State.resetOn (P : Platform) (ws : List Word) (ts : List Turn) : State where
  platform := P
  stream := ws
  turns := ts
  cpc := 0
  bound := []
  pin := []
  cfg := []
  mode := []
  top := []
  phase := []
  cmp := []
  en := []
  dir := []
  latch := []
  resp := ⟨0, 0⟩
  errlog := []
  fault := none
  trace := []

/-- The block right after reset (R190) on the reference instance, with no command word from the host yet (R191).
The platform and the empty stream are the model's: notes/assumptions/1.md, 2.md and 4.md. -/
def State.reset : State := State.resetOn Platform.reference [] []

end Sys2Proof.Machine
end

