-- ==== Sys2Proof/Machine/Flags.lean ====
section
/-! DEFINITION. The block has no condition codes, flags or predicates; the only status that a command produces is `RESP`
and the sticky error log (R23). This file computes both. -/

namespace Sys2Proof.Machine

/-- The number of a status code (R161). -/
def statusCode : Status → BitVec 4
  | .ok => 0
  | .illegalCommand => 1
  | .badHandle => 2
  | .notBound => 3
  | .alreadyBound => 4
  | .pinInUse => 5
  | .unsupportedPin => 6
  | .freqRange => 7

/-- Every status code, in the order of the numbers (R161). -/
def allStatus : List Status :=
  [.ok, .illegalCommand, .badHandle, .notBound, .alreadyBound, .pinInUse, .unsupportedPin, .freqRange]

/-- The response of a command that retires with status `e` and data `v`: the data is 0 unless the status is `OK` (R171). -/
def respOf (e : Status) (v : Byte) : Resp := ⟨statusCode e, if e = .ok then v else 0⟩

/-- `ERRLOG ∪ {e}`, listed in the order of the codes (R36, R171). -/
def logWith (log : List Status) (e : Status) : List Status :=
  allStatus.filter fun x => x == e || log.contains x

/-- The canonical form of the error log: each code once, in the order of the numbers. -/
abbrev logWf (log : List Status) : Prop := log = allStatus.filter fun x => log.contains x

end Sys2Proof.Machine
end

