-- ==== Sys2Proof/Machine/Operands.lean ====
section
/-! DEFINITION. What the commands compute from their operands and the platform's parameters: the mapping lookup, the
divider and its range check, the compare value, the wait split, the serializer and the bit reverser. No command names a
register operand (R21); every operand is the plain unsigned value of its field (R77). -/

namespace Sys2Proof.Machine

/-- Ticks per top value in one carrier period: the number `SLOPE` (R6). -/
def slopeTicks : Slope → Nat
  | .single => 1
  | .dual => 2

/-- `TIMER_WIDTH(t)` (R6); 0 for an id outside `TIMERS`. -/
def timerWidth (P : Platform) (t : Nat) : Nat :=
  match P.timers.find? fun d => d.id == t with
  | some d => d.width
  | none => 0

/-- A lookup in the list of `PIN_MAP` entries. -/
def lookupPin : List (PinId × Chan) → PinId → Option Chan
  | [], _ => none
  | e :: es, p => if e.1 = p then some e.2 else lookupPin es p

/-- `PIN_MAP(p)` (R105). -/
def chanOf (P : Platform) (p : PinId) : Option Chan := lookupPin P.pinMap p

/-- The handles `0 .. NUM_HANDLES - 1` (R20). -/
def handleIds (P : Platform) : List Nat := List.range P.numHandles

/-- `divide(f) = F_CLK div (SLOPE * f)` (R102). -/
def divide (P : Platform) (f : Nat) : Nat := P.fClk / (slopeTicks P.slope * f)

/-- `freq_ok(t, f)` (R103). -/
def freqOk (P : Platform) (t f : Nat) : Bool :=
  decide (1 ≤ f) && decide (3 ≤ divide P f) && decide (divide P f ≤ 2 ^ timerWidth P t - 1)

/-- The compare value `TOP div 3` (R104). -/
def compareOf (top : Nat) : Nat := top / Config.dutyDiv

/-- The path that a wait of `d` µs takes (R120). -/
def waitPath (d : Nat) : WaitPath := if d < Config.fineLimit then .fine else .coarse

/-- The units of a wait of `d` µs: µs on the fine path, ms on the coarse one (R120). -/
def waitUnits (d : Nat) : Nat := if d < Config.fineLimit then d else d / Config.coarseDiv

/-- The event that `Wait(h, kind, d)` records, for a handle on pin `p`, by the command of index `idx` (R120). -/
def waitEvent (idx h : Nat) (p : PinId) (kind : WaitKind) (d : Nat) : Event where
  idx := idx
  h := h
  pin := p
  kind := kind
  dur := d
  path := waitPath d
  units := waitUnits d

/-- The mark and space pairs of the `n` low bits of `x`, least-significant bit first; `x` is shifted right by one to expose
the next bit (R140). -/
def serialize (m z o : Nat) : Nat → Byte → List (WaitKind × Nat)
  | 0, _ => []
  | n + 1, x => (.mark, m) :: (.space, if x.getLsbD 0 then o else z) :: serialize m z o n (x >>> 1)

/-- The sixteen gates of one `SEND_BYTE` (R140). -/
def byteGates (v : Byte) (m z o : Nat) : List (WaitKind × Nat) := serialize m z o Config.byteBits v

/-- One bit of a byte. -/
def bitOf (v : Byte) (i : Nat) : BitVec 1 := v.extractLsb' i 1

/-- `rev8(v) = {v[0], v[1], ..., v[7]}`, the first in the high bit (R141). -/
def rev8 (v : Byte) : Byte :=
  bitOf v 0 ++ bitOf v 1 ++ bitOf v 2 ++ bitOf v 3 ++ bitOf v 4 ++ bitOf v 5 ++ bitOf v 6 ++ bitOf v 7

end Sys2Proof.Machine
end

