-- ==== Sys2Proof/Machine/Ops.lean ====
section
/-! DEFINITION. The named operations on the state: one reader and one writer per register, retirement and reported errors
(R171), fault entry (R172), one gate transition (R120 to R122), the checks that `MARK`, `SPACE` and `SEND_BYTE` share
(R170), the tick step (R34) and the fetch of the next command word (R22). -/

namespace Sys2Proof.Machine

/-- The order of keys that are naturals: handles and timers. -/
def natLt (a b : Nat) : Bool := decide (a < b)

/-- The order of pin identifiers. -/
def pinLt (a b : PinId) : Bool := decide (a.toNat < b.toNat)

/-- The order of compare channels: by timer, then by channel. -/
def chanLt (a b : Chan) : Bool := decide (a.timer < b.timer) || (a.timer == b.timer && decide (a.channel < b.channel))

/-! ### Registers: one reader and one writer each -/

/-- `BOUND[h]` (R24). -/
def State.boundAt (s : State) (h : Nat) : Bool := regGet false s.bound h

/-- `BOUND[h] <- b` (R24). -/
def State.setBound (s : State) (h : Nat) (b : Bool) : State := { s with bound := regSet natLt false s.bound h b }

/-- `PIN[h]` (R24). -/
def State.pinAt (s : State) (h : Nat) : Option PinId := regGet none s.pin h

/-- `PIN[h] <- p` (R24). -/
def State.setPin (s : State) (h : Nat) (p : PinId) : State := { s with pin := regSet natLt none s.pin h (some p) }

/-- `CFG[h]` (R25). -/
def State.cfgAt (s : State) (h : Nat) : Bool := regGet false s.cfg h

/-- `CFG[h] <- b` (R25). -/
def State.setCfg (s : State) (h : Nat) (b : Bool) : State := { s with cfg := regSet natLt false s.cfg h b }

/-- `MODE[t]` (R26). -/
def State.modeAt (s : State) (t : Nat) : Mode := regGet .stopped s.mode t

/-- `MODE[t] <- m` (R26). -/
def State.setMode (s : State) (t : Nat) (m : Mode) : State := { s with mode := regSet natLt .stopped s.mode t m }

/-- `TOP[t]` (R27). -/
def State.topAt (s : State) (t : Nat) : Option Nat := regGet none s.top t

/-- `TOP[t] <- v` (R27). -/
def State.setTop (s : State) (t v : Nat) : State := { s with top := regSet natLt none s.top t (some v) }

/-- `PHASE[t]` (R28). -/
def State.phaseAt (s : State) (t : Nat) : Nat := regGet 0 s.phase t

/-- `PHASE[t] <- v` (R28). -/
def State.setPhase (s : State) (t v : Nat) : State := { s with phase := regSet natLt 0 s.phase t v }

/-- `CMP[t][c]` (R29). -/
def State.cmpAt (s : State) (ch : Chan) : Option Nat := regGet none s.cmp ch

/-- `CMP[t][c] <- v` (R29). -/
def State.setCmp (s : State) (ch : Chan) (v : Nat) : State := { s with cmp := regSet chanLt none s.cmp ch (some v) }

/-- `EN[t][c]` (R30). -/
def State.enAt (s : State) (ch : Chan) : Bool := regGet false s.en ch

/-- `EN[t][c] <- b` (R30). -/
def State.setEn (s : State) (ch : Chan) (b : Bool) : State := { s with en := regSet chanLt false s.en ch b }

/-- `DIR[p]` (R31). -/
def State.dirAt (s : State) (p : PinId) : Dir := regGet .inp s.dir p

/-- `DIR[p] <- d` (R31). -/
def State.setDir (s : State) (p : PinId) (d : Dir) : State := { s with dir := regSet pinLt .inp s.dir p d }

/-- `LATCH[p]` (R32). -/
def State.latchAt (s : State) (p : PinId) : Bool := regGet false s.latch p

/-- `LATCH[p] <- b` (R32). -/
def State.setLatch (s : State) (p : PinId) (b : Bool) : State := { s with latch := regSet pinLt false s.latch p b }

/-- `TRACE <- TRACE ++ [e]` (R120). -/
def State.addEvent (s : State) (e : Event) : State := { s with trace := s.trace ++ [e] }

/-- The rest of the interleaving, once an agent has taken its turn. -/
def State.setTurns (s : State) (ts : List Turn) : State := { s with turns := ts }

/-! ### The three ends of a command (R160) -/

/-- Retirement with status `e` and data `v` (R171): `RESP` is written, an error joins `ERRLOG`, `cpc` advances by one. -/
def retireWith (e : Status) (v : Byte) (s : State) : State :=
  { s with
    resp := respOf e v
    errlog := if e = .ok then s.errlog else logWith s.errlog e
    cpc := s.cpc + 1 }

/-- `retire(v)` (R8). -/
def retire (v : Byte) (s : State) : State := retireWith .ok v s

/-- `report E` (R8): the command makes no other state change. -/
def report (e : Status) (s : State) : State := retireWith e 0 s

/-- `raise F`, the fault entry (R172): `FAULT <- some {reason = F, cpc = cpc}` and nothing else. -/
def raise (f : FaultReason) (s : State) : State := { s with fault := some ⟨f, s.cpc⟩ }

/-- A word that decodes to no command reports `ILLEGAL_COMMAND` and makes no other state change (R79, R80, R162). -/
def execIllegal (s : State) : Host.Outcome State Fault Refusal := .next (report .illegalCommand s)

/-! ### Handles -/

/-- `H >= NUM_HANDLES` (R163). -/
def badHandle (s : State) (h : HandleField) : Bool := decide (s.platform.numHandles ≤ h.toNat)

/-- Every bound handle's `PIN` holds a value: a rule that reads them all may go on (R39). -/
def State.pinsWritten (s : State) : Bool := (handleIds s.platform).all fun h => !s.boundAt h || (s.pinAt h).isSome

/-- Some bound handle holds pin `p` (R100, R166). -/
def State.pinInUse (s : State) (p : PinId) : Bool :=
  (handleIds s.platform).any fun h => s.boundAt h && s.pinAt h == some p

/-- Handle `h` is bound to a pin that `PIN_MAP` maps to timer `t` (R107). -/
def State.onTimer (s : State) (t h : Nat) : Bool :=
  s.boundAt h &&
    match s.pinAt h with
    | some p =>
      match chanOf s.platform p with
      | some ch => ch.timer == t
      | none => false
    | none => false

/-- `CFG[h] <- false` for each handle of a list. -/
def clearCfgs : List Nat → RegMap Nat Bool → RegMap Nat Bool
  | [], m => m
  | h :: hs, m => clearCfgs hs (regSet natLt false m h false)

/-- `invalidate_cotenants(h, t)` (R107). -/
def invalidateCotenants (h t : Nat) (s : State) : State :=
  { s with cfg := clearCfgs ((handleIds s.platform).filter fun h' => decide (h' ≠ h) && s.onTimer t h') s.cfg }

/-! ### Gating -/

/-- One gate transition of handle `h` on pin `p` and channel `ch`: the enable bit is written and the wait recorded (R120,
R121, R122). -/
def gate (h : Nat) (p : PinId) (ch : Chan) (kind : WaitKind) (d : Nat) (s : State) : State :=
  (s.setEn ch (kind == .mark)).addEvent (waitEvent s.cpc h p kind d)

/-- Gate transitions in order (R140). -/
def gates (h : Nat) (p : PinId) (ch : Chan) : List (WaitKind × Nat) → State → State
  | [], s => s
  | g :: gs, s => gates h p ch gs (gate h p ch g.1 g.2 s)

/-- The checks of `MARK`, `SPACE` and `SEND_BYTE` in their order (R170), and then, on the pin and the channel of the
handle, the transition `act` of the command: `BAD_HANDLE` and `NOT_BOUND` are reported, and a bound handle that is not
configured raises `NOT_CONFIGURED` (R121, R169). -/
def gated (h : HandleField) (act : PinId → Chan → State → State) (s : State) : Host.Outcome State Fault Refusal :=
  if badHandle s h then .next (report .badHandle s)
  else if s.boundAt h.toNat = false then .next (report .notBound s)
  else if s.cfgAt h.toNat = false then .next (raise .notConfigured s)
  else
    match s.pinAt h.toNat with
    | none => .fault .unwrittenPin
    | some p =>
      match chanOf s.platform p with
      | none => .fault .unmappedPin
      | some ch => .next (act p ch s)

/-! ### The tick agents -/

/-- The tick step of timer `t` (R34). "A stopped timer has no tick step": its turn passes and nothing changes. -/
def tick (t : Nat) (s : State) : Host.Outcome State Fault Refusal :=
  match s.modeAt t with
  | .stopped => .next s
  | .carrier =>
    match s.topAt t with
    | none => .fault .unwrittenTop
    | some top =>
      if slopeTicks s.platform.slope * top = 0 then .fault .zeroPeriod
      else .next (s.setPhase t ((s.phaseAt t + 1) % (slopeTicks s.platform.slope * top)))

/-! ### The command stream -/

/-- The next command word: `w[cpc]`, if the host has written it (R22, R191). -/
def fetch (s : State) : Option Word := s.stream[s.cpc]?

/-- A stream with `w` at index `n`; the words before it stay, and words that the host had not written are 0. -/
def putWord : List Word → Nat → Word → List Word
  | [], 0, w => [w]
  | [], n + 1, w => 0 :: putWord [] n w
  | _ :: ws, 0, w => w :: ws
  | x :: ws, n + 1, w => x :: putWord ws n w

end Sys2Proof.Machine
end

