-- ==== Sys2Proof/Machine/Configuration.lean ====
section
/-! DEFINITION. Handle binding and carrier configuration: `BIND` (R100) and `CONFIGURE` (R101 to R110). -/

namespace Sys2Proof.Machine

/-- The writes of a successful `BIND` (R100). -/
def commitBind (h : Nat) (p : PinId) (s : State) : State :=
  ((s.setBound h true).setPin h p).setCfg h false

/-- `BIND H, PINID` (R100): the pin is not checked against `PIN_MAP`, and no timer, channel or pin register is written. -/
def execBind (h : HandleField) (pinid : PinId) (s : State) : Host.Outcome State Fault Refusal :=
  if badHandle s h then .next (report .badHandle s)
  else if s.boundAt h.toNat then .next (report .alreadyBound s)
  else if s.pinsWritten = false then .fault .unwrittenPin
  else if s.pinInUse pinid then .next (report .pinInUse s)
  else .next (retire 0 (commitBind h.toNat pinid s))

/-- The register writes of a successful `CONFIGURE` on pin `p` and channel `ch` (R101). -/
def configureRegs (p : PinId) (ch : Chan) (f : Nat) (s : State) : State :=
  ((((((s.setDir p .out).setLatch p false).setEn ch false).setMode ch.timer .carrier).setTop ch.timer
    (divide s.platform f)).setCmp ch (compareOf (divide s.platform f))).setPhase ch.timer 0

/-- The whole commit of a successful `CONFIGURE` (R101), one atomic transition: the registers, the co-tenants (R107) and
`CFG[h]`. -/
def commitConfigure (h : Nat) (p : PinId) (ch : Chan) (f : Nat) (s : State) : State :=
  (invalidateCotenants h ch.timer (configureRegs p ch f s)).setCfg h true

/-- `CONFIGURE H, FREQ` (R101): all checks come before any write. -/
def execConfigure (h : HandleField) (freq : BitVec 32) (s : State) : Host.Outcome State Fault Refusal :=
  if badHandle s h then .next (report .badHandle s)
  else if s.boundAt h.toNat = false then .next (report .notBound s)
  else
    match s.pinAt h.toNat with
    | none => .fault .unwrittenPin
    | some p =>
      match chanOf s.platform p with
      | none => .next (report .unsupportedPin s)
      | some ch =>
        if freqOk s.platform ch.timer freq.toNat = false then .next (report .freqRange s)
        else if s.pinsWritten = false then .fault .unwrittenPin
        else .next (retire 0 (commitConfigure h.toNat p ch freq.toNat s))

end Sys2Proof.Machine
end

