-- ==== Sys2Proof/Machine/Gating.lean ====
section
/-! DEFINITION. Mark/space gating: `MARK` (R121) and `SPACE` (R122), each one gate transition on the handle's own channel
(R125). -/

namespace Sys2Proof.Machine

/-- `MARK H, DUR` (R121): the carrier on, and still on when the command retires. -/
def execMark (h : HandleField) (dur : BitVec 32) (s : State) : Host.Outcome State Fault Refusal :=
  gated h (fun p ch s => retire 0 (gate h.toNat p ch .mark dur.toNat s)) s

/-- `SPACE H, DUR` (R122): the carrier off. -/
def execSpace (h : HandleField) (dur : BitVec 32) (s : State) : Host.Outcome State Fault Refusal :=
  gated h (fun p ch s => retire 0 (gate h.toNat p ch .space dur.toNat s)) s

end Sys2Proof.Machine
end

