-- ==== Sys2Proof/Machine/Serializer.lean ====
section
/-! DEFINITION. The byte serializer and the bit reverser: `SEND_BYTE` (R140) and `REVERSE_BITS` (R141). -/

namespace Sys2Proof.Machine

/-- `SEND_BYTE H, VAL, DM, DZ, DO` (R140): the checks once, then sixteen gate transitions, all with this command's index. -/
def execSendByte (h : HandleField) (val : Byte) (markDur zeroDur oneDur : BitVec 16) (s : State) :
    Host.Outcome State Fault Refusal :=
  gated h (fun p ch s => retire 0 (gates h.toNat p ch (byteGates val markDur.toNat zeroDur.toNat oneDur.toNat) s)) s

/-- The state during the wait of event `k` of a `SEND_BYTE` on pin `p` and channel `ch`: after the first `k + 1` of its
sixteen transitions (R55, R63). -/
def duringWait (h : Nat) (p : PinId) (ch : Chan) (gs : List (WaitKind × Nat)) (k : Nat) (s : State) : State :=
  gates h p ch (gs.take (k + 1)) s

/-- `REVERSE_BITS VAL` (R141): total, no handle, no state but `RESP` and `cpc`. -/
def execReverseBits (val : Byte) (s : State) : Host.Outcome State Fault Refusal :=
  .next (retire (rev8 val) s)

end Sys2Proof.Machine
end

