-- ==== Sys2Proof/Machine/Dispatch.lean ====
section
/-! DEFINITION. The meaning of each command of the opcode map (R78), one arm per constructor. -/

namespace Sys2Proof.Machine

/-- The effect of a command (R100, R101, R121, R122, R140, R141). -/
def exec (i : Instr) (s : State) : Host.Outcome State Fault Refusal :=
  match i with
  | .bind h pinid => Sys2Proof.Machine.execBind h pinid s
  | .configure h freq => Sys2Proof.Machine.execConfigure h freq s
  | .mark h dur => Sys2Proof.Machine.execMark h dur s
  | .space h dur => Sys2Proof.Machine.execSpace h dur s
  | .sendByte h val markDur zeroDur oneDur => Sys2Proof.Machine.execSendByte h val markDur zeroDur oneDur s
  | .reverseBits val => Sys2Proof.Machine.execReverseBits val s

end Sys2Proof.Machine
end

