-- ==== Sys2Proof/WellFormed.lean ====
section
/-! DEFINITION. Well-formedness. A command needs no check: the type of each operand is its field's width, so every term of
`Instr` is well formed. A platform needs the checks of R6 and R106; a model refuses a platform that fails one (U20).
The operands of an assembler line have a check of their own, beside the assembler (Machine/Assembler.lean, R83). -/

namespace Sys2Proof

/-- `F_CLK` is "a positive natural number" (R6). -/
def Platform.clockOk (P : Platform) : Bool := decide (0 < P.fClk)

/-- `NUM_HANDLES` is "1 to 16" (R6). -/
def Platform.handlesOk (P : Platform) : Bool := decide (1 ≤ P.numHandles) && decide (P.numHandles ≤ 16)

/-- `TIMERS` is a set: no timer id stands twice (R6). -/
def Platform.timersOk (P : Platform) : Bool := decide ((P.timers.map TimerDesc.id).Nodup)

/-- `CHANNELS(t)` is a set: no channel id of a timer stands twice (R6). -/
def Platform.channelsOk (P : Platform) : Bool := P.timers.all fun t => decide t.channels.Nodup

/-- `TIMER_WIDTH(t) >= 2` for every timer (R106 (c)). -/
def Platform.widthsOk (P : Platform) : Bool := P.timers.all fun t => decide (2 ≤ t.width)

/-- `PIN_MAP` is a partial function: no pin has two entries (R6). -/
def Platform.pinsOk (P : Platform) : Bool := decide ((P.pinMap.map Prod.fst).Nodup)

/-- Every entry names a timer of `TIMERS` and one of its channels (R106 (a)). -/
def Platform.entriesOk (P : Platform) : Bool :=
  P.pinMap.all fun e => P.timers.any fun t => t.id == e.2.timer && t.channels.contains e.2.channel

/-- No two pins map to the same `(t, c)` (R106 (b)). -/
def Platform.injectiveOk (P : Platform) : Bool := decide ((P.pinMap.map Prod.snd).Nodup)

/-- A well-formed platform (R6, R106). -/
def Platform.wf (P : Platform) : Bool :=
  P.clockOk && P.handlesOk && P.timersOk && P.channelsOk && P.widthsOk && P.pinsOk && P.entriesOk && P.injectiveOk

end Sys2Proof
end

