-- ==== Sys2Proof/Machine/Step.lean ====
section
/-! DEFINITION. One step of the block: the agent whose turn it is moves (R34, R58). -/

namespace Sys2Proof.Machine

/-- The command sequencer's step: nothing in the faulted state (R37, R172), a wait for the host while no word is there
(R191), else the decoded command's effect (R22, R82) or the report of an illegal word (R162). -/
def commandStep (s : State) : Host.Outcome State Fault Refusal :=
  match s.fault with
  | some _ => .fault .blockStopped
  | none =>
    match fetch s with
    | none => .next s
    | some w =>
      match decode w with
      | .ok i => exec i s
      | .error _ => execIllegal s

/-- One step of the block on a well-formed platform (R106): a tick of a timer, or the command sequencer's step. -/
def step (s : State) : Host.Outcome State Fault Refusal :=
  if s.platform.wf then
    match s.turns with
    | [] => commandStep s
    | .command :: ts => commandStep (s.setTurns ts)
    | .tick t :: ts => tick t (s.setTurns ts)
  else .refused .illFormedPlatform

/-- The state with a command word as the host's next one, and the turn with the command sequencer. The word has the low
`nbits` bits of `w`. -/
def State.withFetchWord (s : State) (nbits w : Nat) : State :=
  { s with stream := putWord s.stream s.cpc (BitVec.ofNat 64 (w % 2 ^ nbits)), turns := [] }

end Sys2Proof.Machine
end

