-- ==== Sys2Proof/Machine/Assembler.lean ====
section
/-! DEFINITION. The textual syntax of R83 and the pseudo-instructions of R84 to R86: a parsed line, its operand check, its
command word, and the reading of a line of text. -/

namespace Sys2Proof.Machine

/-- One line of the syntax of R83 to R86 with its operands as written: any natural numbers. -/
inductive AsmLine where
  | bind (h pinid : Nat)
  | cfg (h freq : Nat)
  | mark (h dur : Nat)
  | space (h dur : Nat)
  | sendbyte (h val dm dz dn : Nat)
  | rev (val : Nat)
  /-- `sendbyte.msb` (R84). -/
  | sendbyteMsb (h val dm dz dn : Nat)
  /-- `off` (R85). -/
  | off (h : Nat)
  /-- `.word64` (R86). -/
  | word64 (x : Nat)
  deriving DecidableEq, Repr

/-- An operand fits a field of `n` bits (R83). -/
def fitsField (x n : Nat) : Bool := decide (x < 2 ^ n)

/-- Every operand fits its field: otherwise the line is an assembly error (R83). -/
def AsmLine.wf : AsmLine → Bool
  | .bind h pinid => fitsField h 4 && fitsField pinid 16
  | .cfg h freq => fitsField h 4 && fitsField freq 32
  | .mark h dur => fitsField h 4 && fitsField dur 32
  | .space h dur => fitsField h 4 && fitsField dur 32
  | .sendbyte h val dm dz dn =>
    fitsField h 4 && fitsField val 8 && fitsField dm 16 && fitsField dz 16 && fitsField dn 16
  | .rev val => fitsField val 8
  | .sendbyteMsb h val dm dz dn =>
    fitsField h 4 && fitsField val 8 && fitsField dm 16 && fitsField dz 16 && fitsField dn 16
  | .off h => fitsField h 4
  | .word64 x => fitsField x 64

/-- The word of a line whose operands fit (R83 to R86). -/
def asmWord : AsmLine → Word
  | .bind h pinid => encode (.bind (BitVec.ofNat 4 h) (BitVec.ofNat 16 pinid))
  | .cfg h freq => encode (.configure (BitVec.ofNat 4 h) (BitVec.ofNat 32 freq))
  | .mark h dur => encode (.mark (BitVec.ofNat 4 h) (BitVec.ofNat 32 dur))
  | .space h dur => encode (.space (BitVec.ofNat 4 h) (BitVec.ofNat 32 dur))
  | .sendbyte h val dm dz dn =>
    encode (.sendByte (BitVec.ofNat 4 h) (BitVec.ofNat 8 val) (BitVec.ofNat 16 dm) (BitVec.ofNat 16 dz) (BitVec.ofNat 16 dn))
  | .rev val => encode (.reverseBits (BitVec.ofNat 8 val))
  | .sendbyteMsb h val dm dz dn =>
    encode (.sendByte (BitVec.ofNat 4 h) (rev8 (BitVec.ofNat 8 val)) (BitVec.ofNat 16 dm) (BitVec.ofNat 16 dz)
      (BitVec.ofNat 16 dn))
  | .off h => encode (.space (BitVec.ofNat 4 h) 0)
  | .word64 x => BitVec.ofNat 64 x

/-- The assembler on a parsed line: it never truncates (R83). -/
def assemble (l : AsmLine) : Option Word := if l.wf then some (asmWord l) else none

/-! ### Reading text. The layout of a line beyond R83's words (blanks, letter case): notes/assumptions/15.md. -/

/-- A character that separates words of a line. -/
def isBlank (c : Char) : Bool := c == ' ' || c == '\t' || c == '\r'

/-- The characters without blanks at either end. -/
def trimBlanks (cs : List Char) : List Char := ((cs.dropWhile isBlank).reverse.dropWhile isBlank).reverse

/-- The parts of a text between separators. -/
def splitAtChar (sep : Char) : List Char → List (List Char)
  | [] => [[]]
  | c :: cs =>
    if c = sep then [] :: splitAtChar sep cs
    else
      match splitAtChar sep cs with
      | [] => [[c]]
      | w :: ws => (c :: w) :: ws

/-- The value of a digit, of a base up to 16. -/
def digitValue (c : Char) : Nat :=
  if '0'.toNat ≤ c.toNat ∧ c.toNat ≤ '9'.toNat then c.toNat - '0'.toNat
  else if 'a'.toNat ≤ c.toNat ∧ c.toNat ≤ 'f'.toNat then c.toNat - 'a'.toNat + 10
  else if 'A'.toNat ≤ c.toNat ∧ c.toNat ≤ 'F'.toNat then c.toNat - 'A'.toNat + 10
  else 16

/-- The number that digits of a base stand for, after the value `acc` of those before them. -/
def digitsValue (base acc : Nat) : List Char → Option Nat
  | [] => some acc
  | c :: cs => if digitValue c < base then digitsValue base (acc * base + digitValue c) cs else none

/-- A number: "decimal, `0x` hexadecimal or `0b` binary" (R83). -/
def parseNumber : List Char → Option Nat
  | [] => none
  | '0' :: 'x' :: c :: cs => digitsValue 16 0 (c :: cs)
  | '0' :: 'b' :: c :: cs => digitsValue 2 0 (c :: cs)
  | c :: cs => digitsValue 10 0 (c :: cs)

/-- Every element, or nothing when one is missing. -/
def allSome : List (Option Nat) → Option (List Nat)
  | [] => some []
  | none :: _ => none
  | some x :: xs =>
    match allSome xs with
    | some ys => some (x :: ys)
    | none => none

/-- The operands of a line: numbers between commas (R83). -/
def parseOperands (cs : List Char) : Option (List Nat) :=
  if trimBlanks cs = [] then some [] else allSome ((splitAtChar ',' cs).map fun x => parseNumber (trimBlanks x))

/-- The line of a mnemonic and its operands (R83 to R86). -/
def lineOf (mnemonic : List Char) (ops : List Nat) : Option AsmLine :=
  if mnemonic = ['b', 'i', 'n', 'd'] then
    match ops with
    | [h, p] => some (.bind h p)
    | _ => none
  else if mnemonic = ['c', 'f', 'g'] then
    match ops with
    | [h, f] => some (.cfg h f)
    | _ => none
  else if mnemonic = ['m', 'a', 'r', 'k'] then
    match ops with
    | [h, d] => some (.mark h d)
    | _ => none
  else if mnemonic = ['s', 'p', 'a', 'c', 'e'] then
    match ops with
    | [h, d] => some (.space h d)
    | _ => none
  else if mnemonic = ['s', 'e', 'n', 'd', 'b', 'y', 't', 'e'] then
    match ops with
    | [h, v, m, z, o] => some (.sendbyte h v m z o)
    | _ => none
  else if mnemonic = ['r', 'e', 'v'] then
    match ops with
    | [v] => some (.rev v)
    | _ => none
  else if mnemonic = ['s', 'e', 'n', 'd', 'b', 'y', 't', 'e', '.', 'm', 's', 'b'] then
    match ops with
    | [h, v, m, z, o] => some (.sendbyteMsb h v m z o)
    | _ => none
  else if mnemonic = ['o', 'f', 'f'] then
    match ops with
    | [h] => some (.off h)
    | _ => none
  else if mnemonic = ['.', 'w', 'o', 'r', 'd', '6', '4'] then
    match ops with
    | [x] => some (.word64 x)
    | _ => none
  else none

/-- What a line of text holds: nothing but blanks and a comment, a command word, or an assembly error. -/
inductive AsmResult where
  | empty
  | word (w : Word)
  | error
  deriving DecidableEq, Repr

/-- A line of text: `;` starts a comment (R83). -/
def assembleText (cs : List Char) : AsmResult :=
  let code := trimBlanks (cs.takeWhile (· ≠ ';'))
  if code = [] then .empty
  else
    match parseOperands (code.dropWhile (fun c => !isBlank c)) with
    | none => .error
    | some ops =>
      match lineOf (code.takeWhile (fun c => !isBlank c)) ops with
      | none => .error
      | some l =>
        match assemble l with
        | none => .error
        | some w => .word w

/-- The command words of a text, one command per line (R83); nothing when a line is an assembly error. -/
def assembleLines : List (List Char) → Option (List Word)
  | [] => some []
  | l :: ls =>
    match assembleText l, assembleLines ls with
    | .empty, some ws => some ws
    | .word w, some ws => some (w :: ws)
    | _, _ => none

/-- The command words of a whole text (R83). -/
def assembleProgram (text : List Char) : Option (List Word) := assembleLines (splitAtChar '\n' text)

end Sys2Proof.Machine
end

