-- ==== Sys2Proof/Machine/Pins.lean ====
section
/-! DEFINITION. The pin-mux output driver: the level on every pin as a function of the state (R33), and what the host sees
(R42). Reading a register that holds no value faults (R39). -/

namespace Sys2Proof.Machine

/-- What stands on a pin (R33): not driven, or a bit (true = 1 = active, LED on). -/
inductive PinLevel where
  | z
  | bit (b : Bool)
  deriving DecidableEq, Repr

/-- The carrier's level at phase `ph` for the top value `top` and the compare value `c` (R33): centred on phase 0 with
dual-slope counting. -/
def carrierBit (sl : Slope) (ph top c : Nat) : Bool :=
  match sl with
  | .dual => decide (ph < c) || decide (2 * top - c ≤ ph)
  | .single => decide (ph < c)

/-- `carrier_level(t, c)` (R33). Single-slope counting does not read `TOP`. -/
def carrierLevel (s : State) (ch : Chan) : Except Fault Bool :=
  match s.cmpAt ch, s.platform.slope, s.topAt ch.timer with
  | none, _, _ => .error .unwrittenCmp
  | some c, .single, _ => .ok (carrierBit .single (s.phaseAt ch.timer) 0 c)
  | some _, .dual, none => .error .unwrittenTop
  | some c, .dual, some top => .ok (carrierBit .dual (s.phaseAt ch.timer) top c)

/-- `pin_out(p)` (R33). -/
def pinOut (s : State) (p : PinId) : Except Fault PinLevel :=
  if s.dirAt p = .inp then .ok .z
  else
    match chanOf s.platform p with
    | none => .ok (.bit (s.latchAt p))
    | some ch =>
      if s.enAt ch = true ∧ s.modeAt ch.timer = .carrier then (carrierLevel s ch).map .bit
      else .ok (.bit (s.latchAt p))

/-- The carrier frequency of timer `t` in Hz as the fraction `F_CLK / (SLOPE * TOP[t])` (R34, R110). -/
def carrierFreq (s : State) (t : Nat) : Option (Nat × Nat) :=
  match s.topAt t with
  | some top => some (s.platform.fClk, slopeTicks s.platform.slope * top)
  | none => none

/-- The duty cycle of a channel as the fraction `CMP[t][c] / TOP[t]` (R33, R110). -/
def carrierDuty (s : State) (ch : Chan) : Option (Nat × Nat) :=
  match s.cmpAt ch, s.topAt ch.timer with
  | some c, some top => some (c, top)
  | _, _ => none

/-- What the host sees of pin `p`: `RESP` and the pin's level; nothing else reaches it (R42). -/
def hostSees (s : State) (p : PinId) : Resp × Except Fault PinLevel := (s.resp, pinOut s p)

end Sys2Proof.Machine
end

