-- ==== Sys2Proof/Safety.lean ====
section
/-! DEFINITION. What claims are stated in: how a command ends (R160), the parts of the state that a frame leaves alone,
the end of a run (R201), the command that a step executes, the pulse train of a handle (R127), and the invariant that rules
out the states no run reaches. -/

namespace Sys2Proof.Machine

/-! ### Parts of the state -/

/-- The handle registers `BOUND`, `PIN` and `CFG` are the same. -/
def SameHandles (s t : State) : Prop := t.bound = s.bound ∧ t.pin = s.pin ∧ t.cfg = s.cfg

/-- The timer registers `MODE`, `TOP` and `PHASE` are the same. -/
def SameTimers (s t : State) : Prop := t.mode = s.mode ∧ t.top = s.top ∧ t.phase = s.phase

/-- The channel registers `CMP` and `EN` are the same. -/
def SameChannels (s t : State) : Prop := t.cmp = s.cmp ∧ t.en = s.en

/-- The pin registers `DIR` and `LATCH` are the same. -/
def SamePins (s t : State) : Prop := t.dir = s.dir ∧ t.latch = s.latch

/-- The platform, the host's command stream and the rest of the interleaving are the same. -/
def SameOutside (s t : State) : Prop := t.platform = s.platform ∧ t.stream = s.stream ∧ t.turns = s.turns

/-! ### How a command ends (R160) -/

/-- What every command that retires OK with data `v` does to `RESP`, `ERRLOG`, `cpc` and `FAULT` (R171). -/
def RetiredOk (v : Byte) (s t : State) : Prop :=
  t.resp = ⟨0, v⟩ ∧ t.errlog = s.errlog ∧ t.cpc = s.cpc + 1 ∧ t.fault = s.fault

/-- A reported error `e` (R171): `RESP`, `ERRLOG` and `cpc`, and every other field exactly as before. -/
def ReportedOnly (e : Status) (s t : State) : Prop :=
  t.resp = ⟨statusCode e, 0⟩ ∧ (∀ x, x ∈ t.errlog ↔ x ∈ s.errlog ∨ x = e) ∧ t.cpc = s.cpc + 1 ∧
    t.fault = s.fault ∧ t.trace = s.trace ∧
    SameHandles s t ∧ SameTimers s t ∧ SameChannels s t ∧ SamePins s t ∧ SameOutside s t

/-- The fault entry (R172): `FAULT` holds the reason and the command's index, and every other field is as before. -/
def RaisedOnly (f : FaultReason) (s t : State) : Prop := t = { s with fault := some ⟨f, s.cpc⟩ }

/-! ### Runs (R201) -/

/-- The run ends well: every command has retired and there is no fault (R201). -/
def State.endsWell (s : State) : Prop := s.cpc = s.stream.length ∧ s.fault = none

/-- The run is bad (R201). -/
def State.isBad (s : State) : Prop := s.fault ≠ none

/-- Every pin is an input and no timer runs, as after reset (R192). -/
def State.Undriven (s : State) : Prop := (∀ p, s.dirAt p = .inp) ∧ ∀ t, s.modeAt t = .stopped

/-- No error reported since reset (R36, R202). -/
def State.errorFree (s : State) : Prop := s.errlog = []

/-- The command that the next step executes, when it executes one: the sequencer has the turn, the block is not faulted,
and the host's next word decodes to a command. -/
def State.executes (s : State) : Option Instr :=
  match s.turns.head?.getD .command, s.fault, fetch s with
  | .command, none, some w => (decode w).toOption
  | _, _, _ => none

/-- The handle field of a command; `REVERSE_BITS` has none (R71, R163). -/
def handleOf : Instr → Option HandleField
  | .bind h _ => some h
  | .configure h _ => some h
  | .mark h _ => some h
  | .space h _ => some h
  | .sendByte h _ _ _ _ => some h
  | .reverseBits _ => none

/-- A command that can append to `TRACE`: `MARK`, `SPACE` or `SEND_BYTE` (R38). -/
def isGating : Instr → Bool
  | .bind _ _ => false
  | .configure _ _ => false
  | .mark _ _ => true
  | .space _ _ => true
  | .sendByte _ _ _ _ _ => true
  | .reverseBits _ => false

/-- `n` steps of the machine, stopping at the first fault or refusal. -/
def runFor : Nat → State → Host.Outcome State Fault Refusal
  | 0, s => .next s
  | n + 1, s =>
    match step s with
    | .next t => runFor n t
    | .fault r => .fault r
    | .refused r => .refused r

/-- Commands executed one after the other, with no tick between them: one interleaving of those that R34 allows, DESIGN
CHOICE (notes/assumptions/3.md). Runs with ticks are those of `runFor`. -/
def execAll : List Instr → State → Host.Outcome State Fault Refusal
  | [], s => .next s
  | i :: is, s =>
    match exec i s with
    | .next t => execAll is t
    | .fault r => .fault r
    | .refused r => .refused r

/-- The state after `n` tick steps of timer `t` alone. -/
def ticks (t : Nat) : Nat → State → Host.Outcome State Fault Refusal
  | 0, s => .next s
  | n + 1, s =>
    match tick t s with
    | .next s' => ticks t n s'
    | .fault r => .fault r
    | .refused r => .refused r

/-! ### The pulse train of a handle -/

/-- The kind of the last event of handle `h` in a pulse train. -/
def lastGate (h : Nat) : List Event → Option WaitKind
  | [] => none
  | e :: es =>
    match lastGate h es with
    | some k => some k
    | none => if e.h = h then some e.kind else none

/-- The last gate of handle `h` since its last `CONFIGURE` (R127), after a step from `s` to `t`, from what it was before:
`g`. A retired `CONFIGURE` of the handle clears it, and an event of the handle sets it. -/
def gateAfter (s t : State) (h : Nat) (g : Option WaitKind) : Option WaitKind :=
  match s.executes with
  | some (.configure h' _) => if h'.toNat = h ∧ t.resp.status = 0 ∧ t.cpc = s.cpc + 1 then none else g
  | _ =>
    match lastGate h (t.trace.drop s.trace.length) with
    | some k => some k
    | none => g

/-- The enable bit of every configured handle's channel is 1 exactly when the last gate recorded for it is a `MARK`
(R127). -/
def EnMatches (s : State) (g : Nat → Option WaitKind) : Prop :=
  ∀ h p ch, s.cfgAt h = true → s.pinAt h = some p → chanOf s.platform p = some ch →
    s.enAt ch = (g h == some .mark)

/-- The pulse train without the indices of the commands (R143). -/
def withoutIdx (es : List Event) : List Event := es.map fun e => { e with idx := 0 }

/-- The eight mark and space pairs that stand for one `SEND_BYTE` (R143). -/
def bytePairs (h : HandleField) (v : Byte) (m z o : BitVec 16) : List Instr :=
  (List.range 8).flatMap fun i =>
    [.mark h (m.setWidth 32), .space h ((if v.getLsbD i then o else z).setWidth 32)]

/-! ### What no command reads -/

/-- The states agree on everything but `PHASE`, `TRACE`, `RESP` and `ERRLOG`. -/
def SameButObserved (s s' : State) : Prop :=
  s' = { s with phase := s'.phase, trace := s'.trace, resp := s'.resp, errlog := s'.errlog }

/-! ### The invariant -/

/-- Every register file and the error log are in canonical form. -/
def State.Canonical (s : State) : Prop :=
  regWf natLt false s.bound ∧ regWf natLt none s.pin ∧ regWf natLt false s.cfg ∧
    regWf natLt .stopped s.mode ∧ regWf natLt none s.top ∧ regWf natLt 0 s.phase ∧
    regWf chanLt none s.cmp ∧ regWf chanLt false s.en ∧ regWf pinLt .inp s.dir ∧ regWf pinLt false s.latch ∧
    logWf s.errlog ∧ Status.ok ∉ s.errlog

/-- What holds in every state that a run from reset reaches. -/
structure State.Inv (s : State) : Prop where
  /-- Equal register files are equal data. -/
  canonical : s.Canonical
  /-- No more commands retire than the host has written (R201). -/
  cpcInStream : s.cpc ≤ s.stream.length
  /-- Only handles below `NUM_HANDLES` are bound (R20, R163). -/
  boundRange : ∀ h, s.boundAt h = true → h < s.platform.numHandles
  /-- `PIN[h]` holds a value exactly when `BOUND[h]` is true (R24). -/
  boundPin : ∀ h, s.boundAt h = (s.pinAt h).isSome
  /-- A configured handle is bound (R101). -/
  cfgBound : ∀ h, s.cfgAt h = true → s.boundAt h = true
  /-- No two handles hold one pin (R166). -/
  pinsDistinct : ∀ h h' p, s.pinAt h = some p → s.pinAt h' = some p → h = h'
  /-- A configured handle's pin is mapped and driven, and its timer runs with a compare value of one third (R101, R104,
  R121). -/
  configured : ∀ h p, s.cfgAt h = true → s.pinAt h = some p →
    ∃ ch top, chanOf s.platform p = some ch ∧ s.modeAt ch.timer = .carrier ∧ s.topAt ch.timer = some top ∧
      s.cmpAt ch = some (compareOf top) ∧ s.dirAt p = .out
  /-- A running timer has a top value in the range of R27 and a phase within one period (R28). -/
  running : ∀ t, s.modeAt t = .carrier →
    ∃ top, s.topAt t = some top ∧ 3 ≤ top ∧ top ≤ 2 ^ timerWidth s.platform t - 1 ∧
      s.phaseAt t < slopeTicks s.platform.slope * top
  /-- A stopped timer is as reset left it (R26 to R28). -/
  stopped : ∀ t, s.modeAt t = .stopped → s.topAt t = none ∧ s.phaseAt t = 0
  /-- A written compare value is at least 1, fits its register, and its timer runs (R29, R103). -/
  compares : ∀ ch c, s.cmpAt ch = some c →
    1 ≤ c ∧ c ≤ 2 ^ timerWidth s.platform ch.timer - 1 ∧ s.modeAt ch.timer = .carrier
  /-- An enabled channel is the channel of a bound handle's driven pin, and its compare value is written (R39). -/
  enabled : ∀ ch, s.enAt ch = true →
    ∃ h p c, s.pinAt h = some p ∧ chanOf s.platform p = some ch ∧ s.cmpAt ch = some c ∧ s.dirAt p = .out
  /-- Only pins of bound handles are driven (R192). -/
  driven : ∀ p, s.dirAt p = .out → ∃ h, s.pinAt h = some p
  /-- No command writes 1 to a latch (R32). -/
  latchLow : ∀ p, s.latchAt p = false
  /-- The status codes 8 to 15 are never produced (R161). -/
  respCode : s.resp.status.toNat ≤ 7
  /-- A fault leaves `cpc` at the faulting command (R22, R172). -/
  faultHere : ∀ r, s.fault = some r → r.cpc = s.cpc
  /-- Every event is of a retired command, on its handle's pin, with the path and units of its duration (R38, R120). -/
  traced : ∀ e ∈ s.trace, e.idx < s.cpc ∧ s.pinAt e.h = some e.pin ∧ e.path = waitPath e.dur ∧ e.units = waitUnits e.dur

end Sys2Proof.Machine
end

