-- ==== Sys2Proof/Certificates/Slice0/Obligations.lean ====
section
/-! DEFINITION. The statements about the block, for the provers. Each docstring names the rules of spec/ that it formalises;
a clause that rests on an inference the spec marks as its own, or on a choice of the model, says so. -/

open Sys2Proof Sys2Proof.Machine

/-! ### Reset and the platform -/

/-- R190: reset puts every register at the value of its rule, on every platform. -/
def Obligations.ResetValues : Prop :=
  ∀ (P : Platform) (ws : List Word) (ts : List Turn),
    let s := State.resetOn P ws ts
    s.cpc = 0 ∧ s.resp = ⟨0, 0⟩ ∧ s.errlog = [] ∧ s.fault = none ∧ s.trace = [] ∧
      (∀ h, s.boundAt h = false ∧ s.pinAt h = none ∧ s.cfgAt h = false) ∧
      (∀ t, s.modeAt t = .stopped ∧ s.topAt t = none ∧ s.phaseAt t = 0) ∧
      (∀ ch, s.cmpAt ch = none ∧ s.enAt ch = false) ∧
      ∀ p, s.dirAt p = .inp ∧ s.latchAt p = false

/-- 70_reset_and_hazards.md, Reset (the inference "After reset every pin is an undriven input and no timer runs"): so
after reset, where every pin reads Z; a step that executes no `CONFIGURE` keeps it so, and so does every `BIND`; and a
pin is first driven, or a timer first started, by a `CONFIGURE` of a handle that holds the pin, or a pin of
that timer. -/
def Obligations.PinsUndrivenUntilConfigured : Prop :=
  (∀ (P : Platform) (ws : List Word) (ts : List Turn), (State.resetOn P ws ts).Undriven) ∧
  (∀ s : State, s.Undriven → ∀ p, pinOut s p = .ok .z) ∧
  (∀ s t : State, s.Undriven → step s = .next t → (∀ h f, s.executes ≠ some (.configure h f)) → t.Undriven) ∧
  (∀ (h : HandleField) (q : PinId) (s t : State), s.Undriven → exec (.bind h q) s = .next t → t.Undriven) ∧
  ∀ s t : State, step s = .next t →
    (∀ p, s.dirAt p = .inp → t.dirAt p = .out →
      ∃ h f, s.executes = some (.configure h f) ∧ s.pinAt h.toNat = some p) ∧
    ∀ k, s.modeAt k = .stopped → t.modeAt k = .carrier →
      ∃ h f p ch, s.executes = some (.configure h f) ∧ s.pinAt h.toNat = some p ∧ chanOf s.platform p = some ch ∧
        ch.timer = k

/-- The invariant of the model holds right after reset, on every platform. -/
def Obligations.ResetMeetsInvariant : Prop :=
  ∀ (P : Platform) (ws : List Word) (ts : List Turn), (State.resetOn P ws ts).Inv

/-- Every step keeps the invariant of the model (State.Inv in Safety.lean): the register files and the error log stay
in canonical form; bound handles hold distinct pins; a configured handle's timer runs with a compare value of one
third; a running timer's top value and phase stay in range; an enabled channel belongs to a bound handle's driven pin;
no latch is high; the status code stays below 8; a fault stands at the faulting command; every event is a retired
command's. -/
def Obligations.StepKeepsInvariant : Prop :=
  ∀ s t : State, s.Inv → step s = .next t → t.Inv

/-- 10_state.md, the paragraph on registers that hold no value (an inference the spec marks as its own): from a state
that meets the invariant, a step reads no unwritten register; it answers a next state, or the block is faulted and the
command sequencer has the turn. That the machine then stops as `blockStopped` is the model's reading of R172, DEDUCED
(notes/assumptions/6.md). In a state that meets the invariant no pin's level is an unwritten read either. -/
def Obligations.NoUnwrittenRegisterIsRead : Prop :=
  ∀ s : State, s.Inv → s.platform.wf = true →
    ((∃ t, step s = .next t) ∨
      (s.fault ≠ none ∧ s.turns.head?.getD .command = .command ∧ step s = .fault .blockStopped)) ∧
    ∀ p, ∃ l, pinOut s p = .ok l

/-- 10_state.md, the same paragraph ("A model that does reach such a read must fault, not pick a value"; the model's
clauses are notes/assumptions/7.md): in the states that no run reaches, the reads fault. -/
def Obligations.UnwrittenReadsFault : Prop :=
  ∀ s : State,
    (∀ h : HandleField, h.toNat < s.platform.numHandles → s.boundAt h.toNat = true → s.pinAt h.toNat = none →
      (∀ f, exec (.configure h f) s = .fault .unwrittenPin) ∧
      (∀ k : HandleField, k.toNat < s.platform.numHandles → s.boundAt k.toNat = false →
        ∀ p, exec (.bind k p) s = .fault .unwrittenPin) ∧
      (s.cfgAt h.toNat = true →
        (∀ d, exec (.mark h d) s = .fault .unwrittenPin) ∧ (∀ d, exec (.space h d) s = .fault .unwrittenPin) ∧
          ∀ v m z o, exec (.sendByte h v m z o) s = .fault .unwrittenPin)) ∧
    (∀ t, s.modeAt t = .carrier → s.topAt t = none → tick t s = .fault .unwrittenTop) ∧
    ∀ p ch, s.dirAt p = .out → chanOf s.platform p = some ch → s.enAt ch = true → s.modeAt ch.timer = .carrier →
      (s.cmpAt ch = none → pinOut s p = .error .unwrittenCmp) ∧
      (∀ c, s.cmpAt ch = some c → s.platform.slope = .dual → s.topAt ch.timer = none →
        pinOut s p = .error .unwrittenTop)

/-- R106 (a), (b), (c) and the ranges and kinds of R6: a step refuses a platform that is not well formed, and no other.
The spec says that a model refuses it; that a step makes the refusal, from parameters held in the state, is the model's
choice (notes/assumptions/1.md). -/
def Obligations.IllFormedPlatformIsRefused : Prop :=
  ∀ s : State, (s.platform.wf = false → step s = .refused .illFormedPlatform) ∧
    (s.platform.wf = true → ∀ r, step s ≠ .refused r)

/-- R106 (a), (b), (c) with the ranges and kinds of R6: `Platform.wf` accepts a platform exactly when `F_CLK` is
positive, `NUM_HANDLES` is 1 to 16, `TIMERS` and every `CHANNELS(t)` are sets, every width is at least 2, and `PIN_MAP`
is a function that names channels of the platform and gives no two pins the same one. On such a platform the lookups
read those data. -/
def Obligations.WellFormedPlatformMeaning : Prop :=
  ∀ P : Platform,
    (P.wf = true ↔
      0 < P.fClk ∧ 1 ≤ P.numHandles ∧ P.numHandles ≤ 16 ∧
      (P.timers.map TimerDesc.id).Nodup ∧ (∀ d ∈ P.timers, d.channels.Nodup) ∧ (∀ d ∈ P.timers, 2 ≤ d.width) ∧
      (P.pinMap.map Prod.fst).Nodup ∧
      (∀ p ch, (p, ch) ∈ P.pinMap → ∃ d ∈ P.timers, d.id = ch.timer ∧ ch.channel ∈ d.channels) ∧
      ∀ p q ch, (p, ch) ∈ P.pinMap → (q, ch) ∈ P.pinMap → p = q) ∧
    (P.wf = true →
      (∀ p ch, chanOf P p = some ch ↔ (p, ch) ∈ P.pinMap) ∧ ∀ d ∈ P.timers, timerWidth P d.id = d.width)

/-! ### A step -/

/-- R22, R82: when the sequencer has the turn and the host's word at `cpc` decodes to `i`, the step is exec of `i`; the
step's own part is taking the turn (notes/assumptions/3.md). -/
def Obligations.StepRunsDecodedCommand : Prop :=
  ∀ (s : State) (w : Word) (i : Instr), s.platform.wf = true → s.fault = none → s.stream[s.cpc]? = some w →
    decode w = .ok i →
    (s.turns = [] → step s = exec i s) ∧
    ∀ ts, s.turns = .command :: ts → step s = exec i { s with turns := ts }

/-- R79, R80, R162: a word with a reserved opcode, or with a legal opcode and a 1 in a reserved bit, reports
`ILLEGAL_COMMAND` and makes no other state change, whatever its handle field holds. -/
def Obligations.IllegalWordIsReported : Prop :=
  ∀ (s : State) (w : Word), s.platform.wf = true → s.fault = none → s.turns.head?.getD .command = .command →
    s.stream[s.cpc]? = some w →
    ((w >>> 60 = 0 ∨ 7 ≤ (w >>> 60).toNat) ∨
      ∃ r ∈ opTable, w >>> 60 = r.pattern >>> 60 ∧ w &&& r.mask ≠ r.pattern) →
    ∃ t, step s = .next t ∧ ReportedOnly .illegalCommand { s with turns := s.turns.tail } t

/-- R191: after the last word the block waits for the host; nothing changes (notes/assumptions/5.md). -/
def Obligations.BlockWaitsForTheHost : Prop :=
  ∀ s : State, s.platform.wf = true → s.fault = none → s.turns.head?.getD .command = .command →
    s.stream.length ≤ s.cpc → step s = .next { s with turns := s.turns.tail }

/-- R37, R172: while `FAULT` is set the block executes no command (the sequencer's turn stops the machine as
`blockStopped`, the model's reading of "no command step", DEDUCED: notes/assumptions/6.md), tick steps go
on, and no step changes anything but `PHASE`, so `FAULT` is never cleared. -/
def Obligations.FaultedBlockExecutesNothing : Prop :=
  ∀ s : State, s.platform.wf = true → s.fault ≠ none →
    (s.turns.head?.getD .command = .command → step s = .fault .blockStopped) ∧
    (∀ t, step s = .next t → t = { s with turns := t.turns, phase := t.phase }) ∧
    ∀ k ts top, s.turns = .tick k :: ts → s.modeAt k = .carrier → s.topAt k = some top → 0 < top → ∃ t, step s = .next t

/-- R34: the tick step of a running timer advances its phase by one within `SLOPE * TOP` ticks and changes nothing
else; a stopped timer has no tick step (its turn passes: notes/assumptions/3.md). -/
def Obligations.TickAdvancesPhase : Prop :=
  ∀ (s : State) (k : Nat) (ts : List Turn), s.platform.wf = true → s.turns = .tick k :: ts →
    (s.modeAt k = .stopped → step s = .next { s with turns := ts }) ∧
    ∀ top, s.modeAt k = .carrier → s.topAt k = some top → 0 < top →
      ∃ t, step s = .next t ∧ t.turns = ts ∧
        (∀ j, t.phaseAt j =
          if j = k then (s.phaseAt k + 1) % (slopeTicks s.platform.slope * top) else s.phaseAt j) ∧
        t = { s with turns := ts, phase := t.phase }

/-- R28, R34 (the carrier frequency is an inference the spec marks as its own): `n` ticks of a running timer advance its
phase by `n` within the period of `SLOPE * TOP` ticks, so the waveform repeats after exactly that many. -/
def Obligations.TicksRepeatAfterOnePeriod : Prop :=
  ∀ (s : State) (k top n : Nat), s.modeAt k = .carrier → s.topAt k = some top → 0 < top →
    s.phaseAt k < slopeTicks s.platform.slope * top →
    ∃ t, ticks k n s = .next t ∧ t.phaseAt k = (s.phaseAt k + n) % (slopeTicks s.platform.slope * top) ∧
      (∀ j, j ≠ k → t.phaseAt j = s.phaseAt j) ∧ t = { s with phase := t.phase }

/-! ### Decoding -/

/-- Words written out from the formats of R72 to R76 decode to the commands they stand for (a sanity statement). -/
def Obligations.SpecWordsDecode : Prop :=
  decode 0x1000000000000003#64 = .ok (.bind 0 3) ∧ decode 0x2000000000009470#64 = .ok (.configure 0 38000) ∧
    decode 0x3200000000000064#64 = .ok (.mark 2 100) ∧ decode 0x40000000FFFFFFFF#64 = .ok (.space 0 4294967295) ∧
    decode 0x500501F401F405DC#64 = .ok (.sendByte 0 5 500 500 1500) ∧
    decode 0x60000000000000C4#64 = .ok (.reverseBits 0xC4) ∧
    decode 0x6100000000000005#64 = .error .reservedBits ∧ decode 0x7000000000000000#64 = .error .reservedOpcode

/-- R82: decoding the word of any command gives the command back, at every value of every operand. -/
def Obligations.DecodeOfEncode : Prop := ∀ i : Instr, decode (encode i) = .ok i

/-- R82 (the inverse is an inference the spec marks as its own): a word that decodes is the word of its command, so no
bit of it is dropped. -/
def Obligations.EncodeOfDecode : Prop := ∀ (w : Word) (i : Instr), decode w = .ok i → encode i = w

/-- R78, R81: a word decodes to a command exactly when it selects a row of the opcode map, and then it selects the row of
that command and no other. -/
def Obligations.DecodeFollowsOpcodeMap : Prop :=
  ∀ w : Word, ((∃ i, decode w = .ok i) ↔ ∃ r ∈ opTable, r.selects w = true) ∧
    ∀ i, decode w = .ok i → ∀ r ∈ opTable, r.selects w = true ↔ r = opRow i

/-- R79, R80: which words are illegal, and why. -/
def Obligations.IllegalWords : Prop :=
  ∀ w : Word,
    (decode w = .error .reservedOpcode ↔ w.toNat / 2 ^ 60 = 0 ∨ 7 ≤ w.toNat / 2 ^ 60) ∧
    (decode w = .error .reservedBits ↔
      (w.toNat / 2 ^ 60 = 1 ∧ w.toNat / 2 ^ 16 % 2 ^ 40 ≠ 0) ∨
      (2 ≤ w.toNat / 2 ^ 60 ∧ w.toNat / 2 ^ 60 ≤ 4 ∧ w.toNat / 2 ^ 32 % 2 ^ 24 ≠ 0) ∨
      (w.toNat / 2 ^ 60 = 6 ∧ w.toNat / 2 ^ 8 % 2 ^ 52 ≠ 0)) ∧
    decode w ≠ .error .partialWord

/-- R52, R54: a transport carries a word as 8 bytes, byte `k` being bits `[8k+7 : 8k]`; those bytes decode as the word,
and no other number of bytes is a command. -/
def Obligations.TransportIsLittleEndian : Prop :=
  (∀ w : Word, decodeBytes (bytesOfWord w) = decode w ∧ (bytesOfWord w).length = 8 ∧
    ∀ k < 8, (bytesOfWord w)[k]? = some (BitVec.ofNat 8 (w.toNat / 2 ^ (8 * k)))) ∧
  ∀ bs : List Byte, bs.length ≠ 8 → decodeBytes bs = .error .partialWord

/-! ### The commands -/

/-- R100, R165, R166: `BIND`, its encoding and every outcome. The premise on `PIN` holds in every state that meets the
invariant. -/
def Obligations.BindMeaning : Prop :=
  ∀ (h : HandleField) (p : PinId) (s : State), (∀ k, s.boundAt k = true → (s.pinAt k).isSome = true) →
    decode (1#4 ++ h ++ 0#40 ++ p) = .ok (.bind h p) ∧
    (s.platform.numHandles ≤ h.toNat → ∃ t, exec (.bind h p) s = .next t ∧ ReportedOnly .badHandle s t) ∧
    (h.toNat < s.platform.numHandles → s.boundAt h.toNat = true →
      ∃ t, exec (.bind h p) s = .next t ∧ ReportedOnly .alreadyBound s t) ∧
    (h.toNat < s.platform.numHandles → s.boundAt h.toNat = false →
      (∃ k < s.platform.numHandles, s.boundAt k = true ∧ s.pinAt k = some p) →
      ∃ t, exec (.bind h p) s = .next t ∧ ReportedOnly .pinInUse s t) ∧
    (h.toNat < s.platform.numHandles → s.boundAt h.toNat = false →
      (∀ k < s.platform.numHandles, s.boundAt k = true → s.pinAt k ≠ some p) →
      ∃ t, exec (.bind h p) s = .next t ∧ RetiredOk 0 s t ∧
        (∀ k, t.boundAt k = if k = h.toNat then true else s.boundAt k) ∧
        (∀ k, t.pinAt k = if k = h.toNat then some p else s.pinAt k) ∧
        (∀ k, t.cfgAt k = if k = h.toNat then false else s.cfgAt k) ∧
        SameTimers s t ∧ SameChannels s t ∧ SamePins s t ∧ SameOutside s t ∧ t.trace = s.trace)

/-- R101, R103, R167, R168: `CONFIGURE`, its encoding and every outcome, with its co-tenants. The divider is the
function `divide`; ConfiguredCarrier says which (R102, a formula that the spec marks as its own). The premise on `PIN`
holds in every state that meets the invariant. -/
def Obligations.ConfigureMeaning : Prop :=
  ∀ (h : HandleField) (f : BitVec 32) (s : State), (∀ k, s.boundAt k = true → (s.pinAt k).isSome = true) →
    decode (2#4 ++ h ++ 0#24 ++ f) = .ok (.configure h f) ∧
    (s.platform.numHandles ≤ h.toNat → ∃ t, exec (.configure h f) s = .next t ∧ ReportedOnly .badHandle s t) ∧
    (h.toNat < s.platform.numHandles → s.boundAt h.toNat = false →
      ∃ t, exec (.configure h f) s = .next t ∧ ReportedOnly .notBound s t) ∧
    ∀ p, h.toNat < s.platform.numHandles → s.boundAt h.toNat = true → s.pinAt h.toNat = some p →
      (chanOf s.platform p = none → ∃ t, exec (.configure h f) s = .next t ∧ ReportedOnly .unsupportedPin s t) ∧
      ∀ ch, chanOf s.platform p = some ch →
        let top := divide s.platform f.toNat
        let ok := 1 ≤ f.toNat ∧ 3 ≤ top ∧ top ≤ 2 ^ timerWidth s.platform ch.timer - 1
        (¬ok → ∃ t, exec (.configure h f) s = .next t ∧ ReportedOnly .freqRange s t) ∧
        (ok → ∃ t, exec (.configure h f) s = .next t ∧ RetiredOk 0 s t ∧
          (∀ q, t.dirAt q = if q = p then .out else s.dirAt q) ∧
          (∀ q, t.latchAt q = if q = p then false else s.latchAt q) ∧
          (∀ x, t.enAt x = if x = ch then false else s.enAt x) ∧
          (∀ x, t.cmpAt x = if x = ch then some (top / 3) else s.cmpAt x) ∧
          (∀ k, t.modeAt k = if k = ch.timer then .carrier else s.modeAt k) ∧
          (∀ k, t.topAt k = if k = ch.timer then some top else s.topAt k) ∧
          (∀ k, t.phaseAt k = if k = ch.timer then 0 else s.phaseAt k) ∧
          t.cfgAt h.toNat = true ∧
          (∀ k, k ≠ h.toNat →
            ((k < s.platform.numHandles ∧ s.boundAt k = true ∧
                ∃ q x, s.pinAt k = some q ∧ chanOf s.platform q = some x ∧ x.timer = ch.timer) →
              t.cfgAt k = false) ∧
            (¬(k < s.platform.numHandles ∧ s.boundAt k = true ∧
                ∃ q x, s.pinAt k = some q ∧ chanOf s.platform q = some x ∧ x.timer = ch.timer) →
              t.cfgAt k = s.cfgAt k)) ∧
          t.bound = s.bound ∧ t.pin = s.pin ∧ SameOutside s t ∧ t.trace = s.trace)

/-- R121, with the event of R120: `MARK`, its encoding and every outcome: the checks, then the carrier on the handle's
own channel and one event with its path and units. `CFG[h]` implies a mapping (R121); where it does not, see
UnmappedGateStops. -/
def Obligations.MarkMeaning : Prop :=
  ∀ (h : HandleField) (d : BitVec 32) (s : State),
    decode (3#4 ++ h ++ 0#24 ++ d) = .ok (.mark h d) ∧
    (s.platform.numHandles ≤ h.toNat → ∃ t, exec (.mark h d) s = .next t ∧ ReportedOnly .badHandle s t) ∧
    (h.toNat < s.platform.numHandles → s.boundAt h.toNat = false →
      ∃ t, exec (.mark h d) s = .next t ∧ ReportedOnly .notBound s t) ∧
    (h.toNat < s.platform.numHandles → s.boundAt h.toNat = true → s.cfgAt h.toNat = false →
      ∃ t, exec (.mark h d) s = .next t ∧ RaisedOnly .notConfigured s t) ∧
    ∀ p ch, h.toNat < s.platform.numHandles → s.boundAt h.toNat = true → s.cfgAt h.toNat = true →
      s.pinAt h.toNat = some p → chanOf s.platform p = some ch →
      ∃ t, exec (.mark h d) s = .next t ∧ RetiredOk 0 s t ∧
        (∀ x, t.enAt x = if x = ch then true else s.enAt x) ∧
        t.trace = s.trace ++ [⟨s.cpc, h.toNat, p, .mark, d.toNat, if d.toNat < 16383 then .fine else .coarse,
          if d.toNat < 16383 then d.toNat else d.toNat / 1000⟩] ∧
        t.cmp = s.cmp ∧ SameHandles s t ∧ SameTimers s t ∧ SamePins s t ∧ SameOutside s t

/-- R122, with the event of R120: `SPACE`, its encoding and every outcome: the checks, then the carrier off on the
handle's own channel and one event. -/
def Obligations.SpaceMeaning : Prop :=
  ∀ (h : HandleField) (d : BitVec 32) (s : State),
    decode (4#4 ++ h ++ 0#24 ++ d) = .ok (.space h d) ∧
    (s.platform.numHandles ≤ h.toNat → ∃ t, exec (.space h d) s = .next t ∧ ReportedOnly .badHandle s t) ∧
    (h.toNat < s.platform.numHandles → s.boundAt h.toNat = false →
      ∃ t, exec (.space h d) s = .next t ∧ ReportedOnly .notBound s t) ∧
    (h.toNat < s.platform.numHandles → s.boundAt h.toNat = true → s.cfgAt h.toNat = false →
      ∃ t, exec (.space h d) s = .next t ∧ RaisedOnly .notConfigured s t) ∧
    ∀ p ch, h.toNat < s.platform.numHandles → s.boundAt h.toNat = true → s.cfgAt h.toNat = true →
      s.pinAt h.toNat = some p → chanOf s.platform p = some ch →
      ∃ t, exec (.space h d) s = .next t ∧ RetiredOk 0 s t ∧
        (∀ x, t.enAt x = if x = ch then false else s.enAt x) ∧
        t.trace = s.trace ++ [⟨s.cpc, h.toNat, p, .space, d.toNat, if d.toNat < 16383 then .fine else .coarse,
          if d.toNat < 16383 then d.toNat else d.toNat / 1000⟩] ∧
        t.cmp = s.cmp ∧ SameHandles s t ∧ SameTimers s t ∧ SamePins s t ∧ SameOutside s t

/-- R140, with the events of R120: `SEND_BYTE`, its encoding and every outcome: the checks once, then eight mark and
space pairs, least-significant bit first, all with one index, and the carrier off at the end. -/
def Obligations.SendByteMeaning : Prop :=
  ∀ (h : HandleField) (v : Byte) (m z o : BitVec 16) (s : State),
    decode (5#4 ++ h ++ v ++ m ++ z ++ o) = .ok (.sendByte h v m z o) ∧
    (s.platform.numHandles ≤ h.toNat → ∃ t, exec (.sendByte h v m z o) s = .next t ∧ ReportedOnly .badHandle s t) ∧
    (h.toNat < s.platform.numHandles → s.boundAt h.toNat = false →
      ∃ t, exec (.sendByte h v m z o) s = .next t ∧ ReportedOnly .notBound s t) ∧
    (h.toNat < s.platform.numHandles → s.boundAt h.toNat = true → s.cfgAt h.toNat = false →
      ∃ t, exec (.sendByte h v m z o) s = .next t ∧ RaisedOnly .notConfigured s t) ∧
    ∀ p ch, h.toNat < s.platform.numHandles → s.boundAt h.toNat = true → s.cfgAt h.toNat = true →
      s.pinAt h.toNat = some p → chanOf s.platform p = some ch →
      ∃ t, exec (.sendByte h v m z o) s = .next t ∧ RetiredOk 0 s t ∧
        (∀ x, t.enAt x = if x = ch then false else s.enAt x) ∧
        t.trace = s.trace ++ (List.range 8).flatMap (fun i =>
          [waitEvent s.cpc h.toNat p .mark m.toNat,
           waitEvent s.cpc h.toNat p .space (if v.getLsbD i then o.toNat else z.toNat)]) ∧
        t.cmp = s.cmp ∧ SameHandles s t ∧ SameTimers s t ∧ SamePins s t ∧ SameOutside s t

/-- R141: the encoding of `REVERSE_BITS`; it retires from any state with the reversed byte, bit `i` of which is bit `7
- i` of the operand, and writes nothing but `RESP` and `cpc`. -/
def Obligations.ReverseBitsMeaning : Prop :=
  ∀ (v : Byte) (s : State), decode (6#4 ++ 0#52 ++ v) = .ok (.reverseBits v) ∧
    ∃ t r, exec (.reverseBits v) s = .next t ∧ RetiredOk r s t ∧
      (∀ i < 8, r.getLsbD i = v.getLsbD (7 - i)) ∧
      t = { s with resp := t.resp, cpc := t.cpc }

/-- R163: a `BIND`, `CONFIGURE`, `MARK`, `SPACE` or `SEND_BYTE` that names a handle at or above `NUM_HANDLES` is
reported, whatever else is wrong with it, and does nothing else. -/
def Obligations.BadHandleIsReported : Prop :=
  ∀ (i : Instr) (h : HandleField) (s : State), handleOf i = some h → s.platform.numHandles ≤ h.toNat →
    ∃ t, exec i s = .next t ∧ ReportedOnly .badHandle s t

/-- R164: a `CONFIGURE`, `MARK`, `SPACE` or `SEND_BYTE` that names an existing handle with `BOUND[h] = false` is
reported and does nothing else. -/
def Obligations.NotBoundIsReported : Prop :=
  ∀ (i : Instr) (h : HandleField) (s : State), handleOf i = some h → (∀ k p, i ≠ .bind k p) →
    h.toNat < s.platform.numHandles → s.boundAt h.toNat = false →
    ∃ t, exec i s = .next t ∧ ReportedOnly .notBound s t

/-- R169, R172: `MARK`, `SPACE` or `SEND_BYTE` on a bound handle with `CFG[h] = false` raises `NOT_CONFIGURED`: `FAULT`
gets the reason and the command's index, and nothing else changes. -/
def Obligations.UnconfiguredGateFaults : Prop :=
  ∀ (i : Instr) (h : HandleField) (s : State), isGating i = true → handleOf i = some h →
    h.toNat < s.platform.numHandles → s.boundAt h.toNat = true → s.cfgAt h.toNat = false →
    exec i s = .next { s with fault := some ⟨.notConfigured, s.cpc⟩ }

/-- The model's choice (notes/assumptions/8.md): in a state that no run reaches, where `CFG` is set and the pin has no
mapping, a gating command faults by name. -/
def Obligations.UnmappedGateStops : Prop :=
  ∀ (i : Instr) (h : HandleField) (p : PinId) (s : State), isGating i = true → handleOf i = some h →
    h.toNat < s.platform.numHandles → s.boundAt h.toNat = true → s.cfgAt h.toNat = true →
    s.pinAt h.toNat = some p → chanOf s.platform p = none → exec i s = .fault .unmappedPin

/-! ### Laws of the commands -/

/-- R160, R170 to R172: a command ends in one of three ways: it retires OK, or it reports an error and makes no state
change but `RESP`, `ERRLOG` and `cpc`, or it raises the fault and writes nothing else. -/
def Obligations.CommandEndsInOneOfThreeWays : Prop :=
  ∀ (i : Instr) (s t : State), exec i s = .next t →
    (∃ v, RetiredOk v s t) ∨ (∃ e, e ≠ .ok ∧ ReportedOnly e s t) ∨ RaisedOnly .notConfigured s t

/-- 40_configuration.md, Pin→timer/channel mapping (the inference "After a successful `CONFIGURE`, `pin_out(PIN[h]) = 0`,
whatever `EN` was before"): a `CONFIGURE` that goes through leaves its pin driven low. -/
def Obligations.ConfigureLeavesPinLow : Prop :=
  ∀ (h : HandleField) (f : BitVec 32) (p : PinId) (ch : Chan) (s t : State),
    s.pinAt h.toNat = some p → chanOf s.platform p = some ch → exec (.configure h f) s = .next t →
    t.resp.status = 0 → t.dirAt p = .out ∧ pinOut t p = .ok (.bit false)

/-- 40_configuration.md, Frequency divider and duty cycle (R102's formula and R104's bounds, which the spec marks as
its own): a `CONFIGURE` that goes through gives the largest top value whose period is no longer than requested, and a
duty cycle of at most one third, below it by less than one tick per top value. -/
def Obligations.ConfiguredCarrier : Prop :=
  ∀ (h : HandleField) (f : BitVec 32) (p : PinId) (ch : Chan) (s t : State),
    s.pinAt h.toNat = some p → chanOf s.platform p = some ch → exec (.configure h f) s = .next t →
    t.resp.status = 0 →
    ∃ top c, t.topAt ch.timer = some top ∧ t.cmpAt ch = some c ∧
      slopeTicks s.platform.slope * f.toNat * top ≤ s.platform.fClk ∧
      s.platform.fClk < slopeTicks s.platform.slope * f.toNat * (top + 1) ∧
      3 * c ≤ top ∧ top < 3 * c + 3 ∧ 1 ≤ c ∧ top < 2 ^ timerWidth s.platform ch.timer

/-- R107 and R169: a `CONFIGURE` that goes through on another handle of the same timer rewrites the timer's `MODE`, `TOP`
and `PHASE`, clears a handle's `CFG`, and leaves its enable bit and compare value; an enabled pin of that handle now runs at
the new `TOP` with its old `CMP` (its level is stated right after the command, at `PHASE` 0, before any tick). After any
further commands but a `CONFIGURE` of the handle itself, its gating commands fault; `execAll` takes no tick between them, one
interleaving of R34, which is the model's choice (notes/assumptions/3.md). -/
def Obligations.CotenantIsInvalidated : Prop :=
  ∀ (h k : HandleField) (f : BitVec 32) (p q : PinId) (ch x : Chan) (s t : State),
    exec (.configure h f) s = .next t → t.resp.status = 0 →
    k ≠ h → k.toNat < s.platform.numHandles → s.boundAt k.toNat = true →
    s.pinAt h.toNat = some p → chanOf s.platform p = some ch →
    s.pinAt k.toNat = some q → chanOf s.platform q = some x → x.timer = ch.timer → x ≠ ch →
    t.modeAt x.timer = .carrier ∧ t.topAt x.timer = some (divide s.platform f.toNat) ∧ t.phaseAt x.timer = 0 ∧
      t.cfgAt k.toNat = false ∧ t.enAt x = s.enAt x ∧ t.cmpAt x = s.cmpAt x ∧
      (∀ c, s.enAt x = true → s.dirAt q = .out → s.cmpAt x = some c →
        pinOut t q = .ok (.bit (carrierBit s.platform.slope 0 (divide s.platform f.toNat) c))) ∧
      ∀ (is : List Instr) (u : State), (∀ g, Instr.configure k g ∉ is) → execAll is t = .next u →
        ∀ i, isGating i = true → handleOf i = some k →
          exec i u = .next { u with fault := some ⟨.notConfigured, u.cpc⟩ }

/-- 41_gating.md, Gating laws (an inference the spec marks as its own): during the wait of a `MARK` the pin carries the
carrier. -/
def Obligations.PinCarriesCarrierDuringMark : Prop :=
  ∀ (h : HandleField) (d : BitVec 32) (p : PinId) (s : State), s.Inv → s.cfgAt h.toNat = true →
    s.pinAt h.toNat = some p →
    ∃ t ch top, exec (.mark h d) s = .next t ∧ chanOf s.platform p = some ch ∧ s.topAt ch.timer = some top ∧
      pinOut t p = .ok (.bit (carrierBit s.platform.slope (s.phaseAt ch.timer) top (top / 3)))

/-- 41_gating.md, Gating laws (an inference the spec marks as its own): during the wait of a `SPACE` the pin is low. -/
def Obligations.PinIsLowDuringSpace : Prop :=
  ∀ (h : HandleField) (d : BitVec 32) (p : PinId) (s : State), s.Inv → s.cfgAt h.toNat = true →
    s.pinAt h.toNat = some p → ∃ t, exec (.space h d) s = .next t ∧ pinOut t p = .ok (.bit false)

/-- R55 and 41_gating.md, Gating laws (an inference the spec marks as its own): during the sixteen waits of a
`SEND_BYTE` the pin carries the carrier in the even ones and is low in the odd ones, and the state of the last wait is
the one that the command retires. The states of the waits are the model's `duringWait`, where `PHASE` stands still
because `SEND_BYTE` is one step: the model's choice, DEDUCED (notes/assumptions/11.md). -/
def Obligations.PinLevelsDuringSendByte : Prop :=
  ∀ (h : HandleField) (v : Byte) (m z o : BitVec 16) (p : PinId) (s : State), s.Inv → s.cfgAt h.toNat = true →
    s.pinAt h.toNat = some p →
    ∃ ch top, chanOf s.platform p = some ch ∧ s.topAt ch.timer = some top ∧
      exec (.sendByte h v m z o) s =
        .next (retire 0 (duringWait h.toNat p ch (byteGates v m.toNat z.toNat o.toNat) 15 s)) ∧
      ∀ k < 16, pinOut (duringWait h.toNat p ch (byteGates v m.toNat z.toNat o.toNat) k s) p =
        .ok (.bit (if k % 2 = 0 then carrierBit s.platform.slope (s.phaseAt ch.timer) top (top / 3) else false))

/-- R33 (the duty cycle is an inference the spec marks as its own, and the shape decisions D16 and D33): in one period
of `SLOPE * TOP` ticks the carrier is active in exactly `SLOPE * CMP` of them; with a compare value above `TOP`, which
R107 can leave on a co-tenant's channel, it is active in all of them. -/
def Obligations.CarrierDutyCycle : Prop :=
  ∀ (sl : Slope) (top c : Nat),
    ((List.range (slopeTicks sl * top)).filter fun ph => carrierBit sl ph top c).length =
      if c ≤ top then slopeTicks sl * c else slopeTicks sl * top

/-- 42_serializer.md, SEND_BYTE, the transmission-order law (an inference the spec marks as its own): exactly 16 events;
event `2i` is the mark, and event `2i + 1` is a space of `o` if bit `i` of the value is 1 and of `z` otherwise. -/
def Obligations.SendByteOrder : Prop :=
  ∀ (h : HandleField) (v : Byte) (m z o : BitVec 16) (s t : State), exec (.sendByte h v m z o) s = .next t →
    t.resp.status = 0 → t.fault = s.fault → t.cpc = s.cpc + 1 →
    ∃ evs, t.trace = s.trace ++ evs ∧ evs.length = 16 ∧
      ∀ i < 8, (evs[2 * i]?).map (fun e => (e.kind, e.dur)) = some (.mark, m.toNat) ∧
        (evs[2 * i + 1]?).map (fun e => (e.kind, e.dur)) =
          some (.space, if v.getLsbD i then o.toNat else z.toNat)

/-- 42_serializer.md (an inference the spec marks as its own): one `SEND_BYTE` appends the same events as its eight
mark and space pairs, but for the commands' indices, and leaves the same registers; it is one command and they are
sixteen. No tick stands between the sixteen: `execAll`, the model's choice of interleaving (notes/assumptions/3.md). -/
def Obligations.SendByteIsItsPairs : Prop :=
  ∀ (h : HandleField) (v : Byte) (m z o : BitVec 16) (p : PinId) (ch : Chan) (s : State),
    h.toNat < s.platform.numHandles → s.boundAt h.toNat = true → s.cfgAt h.toNat = true →
    s.pinAt h.toNat = some p → chanOf s.platform p = some ch →
    ∃ t u, exec (.sendByte h v m z o) s = .next t ∧ execAll (bytePairs h v m z o) s = .next u ∧
      withoutIdx t.trace = withoutIdx u.trace ∧ t.cpc = s.cpc + 1 ∧ u.cpc = s.cpc + 16 ∧
      (∀ x, t.enAt x = u.enAt x) ∧ t.resp = u.resp ∧ t.errlog = u.errlog ∧ t.fault = u.fault ∧ t.cmp = u.cmp ∧
      SameHandles t u ∧ SameTimers t u ∧ SamePins t u ∧ SameOutside t u

/-- R144: the laws of the bit reverser, for all bytes: an involution, and bit `i` of the result is bit `7 - i`. -/
def Obligations.ReverseLaws : Prop :=
  ∀ v : Byte, rev8 (rev8 v) = v ∧ ∀ i < 8, (rev8 v).getLsbD i = v.getLsbD (7 - i)

/-- 42_serializer.md, REVERSE_BITS (an inference the spec marks as its own), and R84: a `SEND_BYTE` of the reversed byte
emits the byte most-significant bit first: space `i` is `o` if bit `7 - i` of the byte is 1. -/
def Obligations.ReversedByteGoesOutMsbFirst : Prop :=
  ∀ (h : HandleField) (v : Byte) (m z o : BitVec 16) (p : PinId) (ch : Chan) (s : State),
    h.toNat < s.platform.numHandles → s.boundAt h.toNat = true → s.cfgAt h.toNat = true →
    s.pinAt h.toNat = some p → chanOf s.platform p = some ch →
    ∃ t, exec (.sendByte h (rev8 v) m z o) s = .next t ∧
      ∀ i < 8, (t.trace[s.trace.length + 2 * i + 1]?).map (fun e => (e.kind, e.dur)) =
        some (.space, if v.getLsbD (7 - i) then o.toNat else z.toNat)

/-- R123: a second `MARK` (or `SPACE`) of the same handle leaves every enable bit as the first left it and adds its own
event. -/
def Obligations.GateIsIdempotent : Prop :=
  ∀ (h : HandleField) (d e : BitVec 32) (p : PinId) (ch : Chan) (s : State),
    h.toNat < s.platform.numHandles → s.boundAt h.toNat = true → s.cfgAt h.toNat = true →
    s.pinAt h.toNat = some p → chanOf s.platform p = some ch →
    (∃ t u, exec (.mark h d) s = .next t ∧ exec (.mark h e) t = .next u ∧ (∀ x, u.enAt x = t.enAt x) ∧
      u.trace = s.trace ++ [waitEvent s.cpc h.toNat p .mark d.toNat, waitEvent (s.cpc + 1) h.toNat p .mark e.toNat]) ∧
    ∃ t u, exec (.space h d) s = .next t ∧ exec (.space h e) t = .next u ∧ (∀ x, u.enAt x = t.enAt x) ∧
      u.trace = s.trace ++ [waitEvent s.cpc h.toNat p .space d.toNat, waitEvent (s.cpc + 1) h.toNat p .space e.toNat]

/-- R30, R125: no command writes the enable bit of a channel other than its handle's own. -/
def Obligations.OnlyOwnChannelIsGated : Prop :=
  ∀ (i : Instr) (s t : State) (ch : Chan), exec i s = .next t → t.enAt ch ≠ s.enAt ch →
    ∃ h p, handleOf i = some h ∧ s.pinAt h.toNat = some p ∧ chanOf s.platform p = some ch

/-! ### Rules over all steps -/

/-- 41_gating.md, Gating laws (an inference the spec marks as its own): the enable bit of a configured handle's channel
is 1 exactly when the handle's last event since its last `CONFIGURE` is a `MARK`: so after reset, and kept by every
step. -/
def Obligations.EnableFollowsLastGate : Prop :=
  (∀ (P : Platform) (ws : List Word) (ts : List Turn), EnMatches (State.resetOn P ws ts) fun _ => none) ∧
  ∀ (s t : State) (g : Nat → Option WaitKind), s.Inv → EnMatches s g → step s = .next t →
    EnMatches t fun h => gateAfter s t h (g h)

/-- R24: `PIN[h]` is immutable once `BOUND[h]` is true, and no step unbinds a handle; only `BIND` of the handle binds
it. -/
def Obligations.PinIsImmutable : Prop :=
  ∀ (s t : State) (h : Nat), step s = .next t →
    (s.boundAt h = true → t.boundAt h = true ∧ t.pinAt h = s.pinAt h) ∧
    (s.boundAt h = false → t.boundAt h = true → ∃ k p, s.executes = some (.bind k p) ∧ k.toNat = h ∧ t.pinAt h = some p)

/-- R22: `cpc` is 0 after reset; a step leaves it or advances it by one, and advances it exactly when the sequencer had
the turn, a word was there, and the block is not faulted before or after. -/
def Obligations.CpcAdvancesByOne : Prop :=
  (∀ P ws ts, (State.resetOn P ws ts).cpc = 0) ∧
  ∀ s t : State, step s = .next t →
    (t.cpc = s.cpc ∨ t.cpc = s.cpc + 1) ∧
    (t.cpc = s.cpc + 1 ↔
      s.turns.head?.getD .command = .command ∧ s.fault = none ∧ s.cpc < s.stream.length ∧ t.fault = none)

/-- R36: `ERRLOG` is empty after reset; it only grows, by the code other than `OK` that a command reports, and every such
code joins it. -/
def Obligations.ErrlogOnlyGrows : Prop :=
  (∀ P ws ts, (State.resetOn P ws ts).errlog = []) ∧
  ∀ s t : State, step s = .next t →
    (∀ e ∈ s.errlog, e ∈ t.errlog) ∧
    (∀ e ∈ t.errlog, e ∈ s.errlog ∨ (e ≠ .ok ∧ t.resp = ⟨statusCode e, 0⟩ ∧ t.cpc = s.cpc + 1)) ∧
    ∀ e, e ≠ .ok → t.cpc = s.cpc + 1 → t.resp.status = statusCode e → e ∈ t.errlog

/-- R38: `TRACE` is empty after reset and only grows at its end; only `MARK`, `SPACE` and `SEND_BYTE` append to it, and
each new event carries the command's index, its handle, that handle's pin, and the units of its path. -/
def Obligations.TraceOnlyAppends : Prop :=
  (∀ P ws ts, (State.resetOn P ws ts).trace = []) ∧
  ∀ s t : State, step s = .next t →
    ∃ evs, t.trace = s.trace ++ evs ∧
      ∀ e ∈ evs, e.idx = s.cpc ∧ s.pinAt e.h = some e.pin ∧
        e.units = (match e.path with | .fine => e.dur | .coarse => e.dur / 1000) ∧
        ∃ i h, s.executes = some i ∧ isGating i = true ∧ handleOf i = some h ∧ e.h = h.toNat

/-- R35: `RESP` is zero after reset; every retired command writes it, with a status code of R161 and data that is the
reversed byte after `REVERSE_BITS` and 0 after any other; a step that retires no command, a fault among them, leaves
it. -/
def Obligations.RespAfterRetirement : Prop :=
  (∀ P ws ts, (State.resetOn P ws ts).resp = ⟨0, 0⟩) ∧
  ∀ s t : State, step s = .next t →
    (t.cpc = s.cpc → t.resp = s.resp) ∧
    (t.cpc = s.cpc + 1 →
      (∃ e, t.resp.status = statusCode e ∧ (e = .ok ∨ e ∈ t.errlog)) ∧
      ((∀ v, s.executes ≠ some (.reverseBits v)) → t.resp.data = 0) ∧
      ∀ v, s.executes = some (.reverseBits v) → t.resp = ⟨0, rev8 v⟩)

/-- R61 and R6: no step writes the command stream or the platform's parameters (which the model holds in the state:
notes/assumptions/1.md and 2.md). -/
def Obligations.StreamAndPlatformAreConstant : Prop :=
  ∀ s t : State, step s = .next t → t.stream = s.stream ∧ t.platform = s.platform

/-- 10_state.md, the table of which commands write which state (an inference the spec marks as its own). The premise (a
configured handle is bound) holds in every state that meets the invariant: it makes the write of `CFG` by `BIND` one that
changes nothing. -/
def Obligations.OnlyListedCommandsWrite : Prop :=
  ∀ (i : Instr) (s t : State), (∀ h, s.cfgAt h = true → s.boundAt h = true) → exec i s = .next t →
    ((t.bound ≠ s.bound ∨ t.pin ≠ s.pin) → ∃ h p, i = .bind h p) ∧
    ((∃ h, t.cfgAt h ≠ s.cfgAt h) → ∃ h f, i = .configure h f) ∧
    ((¬SameTimers s t ∨ t.cmp ≠ s.cmp ∨ ¬SamePins s t) → ∃ h f, i = .configure h f) ∧
    (t.en ≠ s.en → isGating i = true ∨ ∃ h f, i = .configure h f) ∧
    (t.fault ≠ s.fault → isGating i = true) ∧
    (t.trace ≠ s.trace → isGating i = true)

/-- R28, R38, R58 (no command reads `PHASE`, `TRACE`, `RESP` or `ERRLOG`): two states that agree on all but
`PHASE`, `TRACE`, `RESP` and `ERRLOG` do the same under every command, append the same events, answer the same response
when the command retires, and stop alike. -/
def Obligations.CommandsDoNotReadPhase : Prop :=
  ∀ (i : Instr) (s s' : State), SameButObserved s s' →
    (∀ t, exec i s = .next t → ∃ t' evs, exec i s' = .next t' ∧ SameButObserved t t' ∧
      t.trace = s.trace ++ evs ∧ t'.trace = s'.trace ++ evs ∧ (t.cpc = s.cpc + 1 → t'.resp = t.resp)) ∧
    ∀ r, exec i s = .fault r → exec i s' = .fault r

/-- R58: a tick step and a command other than `CONFIGURE` may run in either order and give the same state (`CONFIGURE`
restarts the phase). -/
def Obligations.TicksCommuteWithCommands : Prop :=
  ∀ (i : Instr) (k : Nat) (s t s' : State), (∀ h f, i ≠ .configure h f) → exec i s = .next t → tick k s = .next s' →
    ∃ t', exec i s' = .next t' ∧ tick k t = .next t'

/-- R201: on every well-formed platform, under every interleaving, the run of a finite command stream from reset ends
well or is bad, once every turn and every word has had its step: it is never refused and stops only in the faulted
state. The stop as `blockStopped` is the model's reading of R172, DEDUCED (notes/assumptions/6.md), and the list of
turns is its form of an interleaving (notes/assumptions/3.md). -/
def Obligations.RunEndsWellOrBad : Prop :=
  ∀ (P : Platform) (ws : List Word) (ts : List Turn), P.wf = true →
    match runFor (ts.length + ws.length) (State.resetOn P ws ts) with
    | .next t => t.endsWell ∨ t.isBad
    | .fault r => r = .blockStopped
    | .refused _ => False

/-- R193: the boot sequence `BIND`, `CONFIGURE`, `MARK` on a mapped pin with a frequency in range retires OK from reset, and
the pin is active. This is the one interleaving with no tick between the commands or after them, where `PHASE` is still 0:
`execAll` takes no turn of `ts`. That choice of interleaving is the model's (DESIGN CHOICE, notes/assumptions/3.md); the pin's
level under every interleaving (R34) is BootSequenceEmitsUnderEveryInterleaving. -/
def Obligations.BootSequenceEmits : Prop :=
  ∀ (P : Platform) (ws : List Word) (ts : List Turn) (h : HandleField) (p : PinId) (f d : BitVec 32) (ch : Chan),
    h.toNat < P.numHandles → chanOf P p = some ch → freqOk P ch.timer f.toNat = true →
    ∃ t, execAll [.bind h p, .configure h f, .mark h d] (State.resetOn P ws ts) = .next t ∧
      t.resp = ⟨0, 0⟩ ∧ t.errlog = [] ∧ t.fault = none ∧ t.cpc = 3 ∧ t.enAt ch = true ∧
      t.trace = [waitEvent 2 h.toNat p .mark d.toNat] ∧ pinOut t p = .ok (.bit true)

/-! ### The assembler -/

/-- R83: a line whose operands fit their fields assembles to the word of its command; a line with an operand that does
not fit is an error, never truncated. -/
def Obligations.AssembledWordsDecode : Prop :=
  (∀ l : AsmLine, l.wf = false → assemble l = none) ∧
  (∀ h p, h < 16 → p < 65536 → ∃ w H P, assemble (.bind h p) = some w ∧ decode w = .ok (.bind H P) ∧
    H.toNat = h ∧ P.toNat = p) ∧
  (∀ h f, h < 16 → f < 2 ^ 32 → ∃ w H F, assemble (.cfg h f) = some w ∧ decode w = .ok (.configure H F) ∧
    H.toNat = h ∧ F.toNat = f) ∧
  (∀ h d, h < 16 → d < 2 ^ 32 → ∃ w H D, assemble (.mark h d) = some w ∧ decode w = .ok (.mark H D) ∧
    H.toNat = h ∧ D.toNat = d) ∧
  (∀ h d, h < 16 → d < 2 ^ 32 → ∃ w H D, assemble (.space h d) = some w ∧ decode w = .ok (.space H D) ∧
    H.toNat = h ∧ D.toNat = d) ∧
  (∀ h v m z o, h < 16 → v < 256 → m < 65536 → z < 65536 → o < 65536 →
    ∃ w H V M Z O, assemble (.sendbyte h v m z o) = some w ∧ decode w = .ok (.sendByte H V M Z O) ∧
      H.toNat = h ∧ V.toNat = v ∧ M.toNat = m ∧ Z.toNat = z ∧ O.toNat = o) ∧
  (∀ v, v < 256 → ∃ w V, assemble (.rev v) = some w ∧ decode w = .ok (.reverseBits V) ∧ V.toNat = v) ∧
  (∀ h p, 16 ≤ h ∨ 65536 ≤ p → assemble (.bind h p) = none) ∧
  (∀ h f, 16 ≤ h ∨ 2 ^ 32 ≤ f → assemble (.cfg h f) = none) ∧
  (∀ h d, 16 ≤ h ∨ 2 ^ 32 ≤ d → assemble (.mark h d) = none) ∧
  (∀ h d, 16 ≤ h ∨ 2 ^ 32 ≤ d → assemble (.space h d) = none) ∧
  (∀ h v m z o, 16 ≤ h ∨ 256 ≤ v ∨ 65536 ≤ m ∨ 65536 ≤ z ∨ 65536 ≤ o → assemble (.sendbyte h v m z o) = none) ∧
  ∀ v, 256 ≤ v → assemble (.rev v) = none

/-- R84, R85, R86: the pseudo-instructions: `sendbyte.msb` is `sendbyte` of the reversed byte, `off` is `space` of
length 0, and `.word64` emits its word unchanged. -/
def Obligations.PseudoInstructions : Prop :=
  (∀ h (v : Byte) m z o, assemble (.sendbyteMsb h v.toNat m z o) = assemble (.sendbyte h (rev8 v).toNat m z o)) ∧
  (∀ h v m z o, 256 ≤ v → assemble (.sendbyteMsb h v m z o) = none) ∧
  (∀ h, assemble (.off h) = assemble (.space h 0)) ∧
  (∀ w : Word, assemble (.word64 w.toNat) = some w) ∧ ∀ x, 2 ^ 64 ≤ x → assemble (.word64 x) = none

/-! ### Runs with ticks -/

/-- R193 under every interleaving of ticks with the commands (R34): on a well-formed platform, a run from reset whose stream
begins with the words of `BIND`, `CONFIGURE` and `MARK`, on a mapped pin with a frequency in range, and whose turns hold
exactly three of the sequencer's and any ticks of any timers among them, retires the three OK; the pin then carries the
carrier, at whatever phase the ticks have left, which is within one period. The list of turns is the model's form of an
interleaving (notes/assumptions/3.md). -/
def Obligations.BootSequenceEmitsUnderEveryInterleaving : Prop :=
  ∀ (P : Platform) (ws : List Word) (ts : List Turn) (h : HandleField) (p : PinId) (f d : BitVec 32) (ch : Chan),
    P.wf = true → h.toNat < P.numHandles → chanOf P p = some ch → freqOk P ch.timer f.toNat = true →
    ts.count .command = 3 →
    ∃ u, runFor ts.length
        (State.resetOn P (encode (.bind h p) :: encode (.configure h f) :: encode (.mark h d) :: ws) ts) = .next u ∧
      u.turns = [] ∧ u.resp = ⟨0, 0⟩ ∧ u.errlog = [] ∧ u.fault = none ∧ u.cpc = 3 ∧ u.enAt ch = true ∧
      u.trace = [waitEvent 2 h.toNat p .mark d.toNat] ∧
      u.phaseAt ch.timer < slopeTicks P.slope * divide P f.toNat ∧
      pinOut u p = .ok (.bit (carrierBit P.slope (u.phaseAt ch.timer) (divide P f.toNat) (divide P f.toNat / 3)))
end

