-- ==== Sys2Proof/Laws/Decode.lean ====
section
/-! SUPPORT. Fields of a word: what each format's concatenation holds, bit by bit. -/

namespace Sys2Proof

theorem bits_getLsbD (w : Word) (lo len i : Nat) : (bits w lo len).getLsbD i = (decide (i < len) && w.getLsbD (lo + i)) := by
  simp [bits]

theorem bits_toNat (w : Word) (lo len : Nat) : (bits w lo len).toNat = w.toNat / 2 ^ lo % 2 ^ len := by
  simp [bits, Nat.shiftRight_eq_div_pow]

/-- A field of a word is zero exactly when its number is. -/
theorem bits_beq_zero (w : Word) (lo len : Nat) : (bits w lo len == 0) = decide (w.toNat / 2 ^ lo % 2 ^ len = 0) := by
  rw [Bool.eq_iff_iff, beq_iff_eq, decide_eq_true_iff, ← bits_toNat]
  exact ⟨fun h => by simp [h], fun h => BitVec.eq_of_toNat_eq (by simpa using h)⟩

/-- The opcode field is a number's four bits. -/
theorem opField_eq_iff (w : Word) (k : BitVec 4) : opField w = k ↔ w.toNat / 2 ^ 60 = k.toNat := by
  have hw : w.toNat / 2 ^ 60 < 2 ^ 4 := by have := w.isLt; omega
  rw [← BitVec.toNat_inj, opField, bits_toNat, Nat.mod_eq_of_lt hw]

theorem bits_eq {w : Word} {lo len : Nat} {x : BitVec len} (h : w.toNat / 2 ^ lo % 2 ^ len = x.toNat) :
    bits w lo len = x :=
  BitVec.eq_of_toNat_eq (by rw [bits_toNat, h])

/-- The decoder by the number of the word. -/
theorem decode_toNat (w : Word) : decode w =
    (if w.toNat / 2 ^ 60 = 1 then
      ifReservedZero (decide (w.toNat / 2 ^ 16 % 2 ^ 40 = 0)) (.bind (handleField w) (bits w 0 16))
    else if w.toNat / 2 ^ 60 = 2 then
      ifReservedZero (decide (w.toNat / 2 ^ 32 % 2 ^ 24 = 0)) (.configure (handleField w) (bits w 0 32))
    else if w.toNat / 2 ^ 60 = 3 then
      ifReservedZero (decide (w.toNat / 2 ^ 32 % 2 ^ 24 = 0)) (.mark (handleField w) (bits w 0 32))
    else if w.toNat / 2 ^ 60 = 4 then
      ifReservedZero (decide (w.toNat / 2 ^ 32 % 2 ^ 24 = 0)) (.space (handleField w) (bits w 0 32))
    else if w.toNat / 2 ^ 60 = 5 then
      .ok (.sendByte (handleField w) (bits w 48 8) (bits w 32 16) (bits w 16 16) (bits w 0 16))
    else if w.toNat / 2 ^ 60 = 6 then
      ifReservedZero (decide (w.toNat / 2 ^ 8 % 2 ^ 52 = 0)) (.reverseBits (bits w 0 8))
    else .error .reservedOpcode) := by
  simp only [decode, opField_eq_iff, bits_beq_zero]
  rfl

/-! ### The number of a command's word -/

theorem append_toNat {m n : Nat} (x : BitVec m) (y : BitVec n) : (x ++ y).toNat = x.toNat * 2 ^ n + y.toNat := by
  rw [BitVec.toNat_append, ← Nat.shiftLeft_add_eq_or_of_lt y.isLt, Nat.shiftLeft_eq]

theorem encode_bind_toNat (h : HandleField) (p : PinId) :
    (encode (.bind h p)).toNat = 2 ^ 60 + h.toNat * 2 ^ 56 + p.toNat := by
  simp only [encode, append_toNat, BitVec.toNat_ofNat]
  omega

theorem encode_configure_toNat (h : HandleField) (f : BitVec 32) :
    (encode (.configure h f)).toNat = 2 * 2 ^ 60 + h.toNat * 2 ^ 56 + f.toNat := by
  simp only [encode, append_toNat, BitVec.toNat_ofNat]
  omega

theorem encode_mark_toNat (h : HandleField) (d : BitVec 32) :
    (encode (.mark h d)).toNat = 3 * 2 ^ 60 + h.toNat * 2 ^ 56 + d.toNat := by
  simp only [encode, append_toNat, BitVec.toNat_ofNat]
  omega

theorem encode_space_toNat (h : HandleField) (d : BitVec 32) :
    (encode (.space h d)).toNat = 4 * 2 ^ 60 + h.toNat * 2 ^ 56 + d.toNat := by
  simp only [encode, append_toNat, BitVec.toNat_ofNat]
  omega

theorem encode_sendByte_toNat (h : HandleField) (v : Byte) (m z o : BitVec 16) :
    (encode (.sendByte h v m z o)).toNat =
      5 * 2 ^ 60 + h.toNat * 2 ^ 56 + v.toNat * 2 ^ 48 + m.toNat * 2 ^ 32 + z.toNat * 2 ^ 16 + o.toNat := by
  simp only [encode, append_toNat, BitVec.toNat_ofNat]
  omega

theorem encode_reverseBits_toNat (v : Byte) : (encode (.reverseBits v)).toNat = 6 * 2 ^ 60 + v.toNat := by
  simp only [encode, append_toNat, BitVec.toNat_ofNat]
  omega

end Sys2Proof
end

