-- ==== Sys2Proof/Laws/RegMap.lean ====
section
/-! SUPPORT. The laws of a register file: a read after a write, and that a write keeps the canonical form. -/

namespace Sys2Proof.Machine

theorem regInsert_mem {κ β : Type} {lt : κ → κ → Bool} {k : κ} {v : β} {m : RegMap κ β} {e : κ × β} (h : e ∈ regInsert lt k v m) :
    e = (k, v) ∨ e ∈ m := by
  induction m with
  | nil => simpa [regInsert] using h
  | cons x m ih =>
    unfold regInsert at h
    split at h
    · simpa using h
    · rcases List.mem_cons.mp h with rfl | h
      · simp
      · rcases ih h with h | h <;> simp [h]

section Reads
variable {κ β : Type} [DecidableEq κ]

@[simp] theorem regGet_nil (d : β) (k : κ) : regGet d ([] : RegMap κ β) k = d := rfl

theorem regErase_cons (e : κ × β) (m : RegMap κ β) (k : κ) :
    regErase (e :: m) k = if e.1 = k then regErase m k else e :: regErase m k := by
  by_cases h : e.1 = k <;> simp [regErase, h]

theorem regGet_regErase (d : β) (m : RegMap κ β) (k k' : κ) :
    regGet d (regErase m k) k' = if k = k' then d else regGet d m k' := by
  induction m with
  | nil => simp [regErase]
  | cons e m ih =>
    rw [regErase_cons]
    split
    · next h =>
      subst h
      simp only [ih, regGet]
      split <;> rfl
    · next h =>
      simp only [regGet, ih]
      by_cases h' : e.1 = k'
      · have : ¬k = k' := fun hk => h (h'.trans hk.symm)
        simp [h', this]
      · simp [h']

theorem regGet_regInsert (lt : κ → κ → Bool) (d v : β) (k k' : κ) (m : RegMap κ β) (hm : ∀ e ∈ m, e.1 ≠ k) :
    regGet d (regInsert lt k v m) k' = if k = k' then v else regGet d m k' := by
  induction m with
  | nil => rfl
  | cons e m ih =>
    have ih := ih fun x hx => hm x (List.mem_cons_of_mem _ hx)
    have he := hm e List.mem_cons_self
    unfold regInsert
    split
    · rfl
    · simp only [regGet, ih]
      by_cases h' : e.1 = k'
      · have : ¬k = k' := fun hk => he (h'.trans hk.symm)
        simp [h', this]
      · simp [h']

theorem regErase_ne (m : RegMap κ β) (k : κ) : ∀ e ∈ regErase m k, e.1 ≠ k := by
  intro e he
  simpa using (List.mem_filter.mp he).2

end Reads

variable {κ β : Type} [DecidableEq κ] [DecidableEq β]

/-- A read after a write: the value written at its own key, every other register as before. -/
theorem regGet_regSet (lt : κ → κ → Bool) (d : β) (m : RegMap κ β) (k k' : κ) (v : β) :
    regGet d (regSet lt d m k v) k' = if k = k' then v else regGet d m k' := by
  unfold regSet
  split
  · next h => rw [regGet_regErase, h]
  · rw [regGet_regInsert lt d v k k' _ (regErase_ne m k), regGet_regErase]
    split <;> rfl

/-- A strict total order on keys. -/
structure KeyOrder (lt : κ → κ → Bool) : Prop where
  trans : ∀ a b c, lt a b = true → lt b c = true → lt a c = true
  total : ∀ a b, a ≠ b → lt a b = false → lt b a = true

theorem regErase_wf {lt : κ → κ → Bool} {d : β} {m : RegMap κ β} (h : regWf lt d m) (k : κ) : regWf lt d (regErase m k) :=
  ⟨h.1.sublist List.filter_sublist, fun e he => h.2 e (List.mem_of_mem_filter he)⟩

theorem regInsert_wf {κ β : Type} [DecidableEq β] {lt : κ → κ → Bool} (o : KeyOrder lt) {d v : β} {k : κ} {m : RegMap κ β} (h : regWf lt d m)
    (hv : v ≠ d) (hm : ∀ e ∈ m, e.1 ≠ k) : regWf lt d (regInsert lt k v m) := by
  refine ⟨?_, fun e he => ?_⟩
  · induction m with
    | nil => simp [regInsert]
    | cons x m ih =>
      have hx := List.pairwise_cons.mp h.1
      have ih := ih ⟨hx.2, fun e he => h.2 e (List.mem_cons_of_mem _ he)⟩ fun e he => hm e (List.mem_cons_of_mem _ he)
      unfold regInsert
      split
      · next hlt =>
        refine List.pairwise_cons.mpr ⟨fun e he => ?_, h.1⟩
        rcases List.mem_cons.mp he with rfl | he
        · exact hlt
        · exact o.trans _ _ _ hlt (hx.1 e he)
      · next hlt =>
        refine List.pairwise_cons.mpr ⟨fun e he => ?_, ih⟩
        rcases regInsert_mem he with rfl | he
        · exact o.total _ _ (fun hk => hm x List.mem_cons_self hk.symm) (by simpa using hlt)
        · exact hx.1 e he
  · rcases regInsert_mem he with rfl | he
    · exact hv
    · exact h.2 e he

/-- A write keeps the canonical form. -/
theorem regSet_wf {lt : κ → κ → Bool} (o : KeyOrder lt) {d : β} {m : RegMap κ β} (h : regWf lt d m) (k : κ) (v : β) :
    regWf lt d (regSet lt d m k v) := by
  unfold regSet
  split
  · exact regErase_wf h k
  · next hv => exact regInsert_wf o (regErase_wf h k) hv (regErase_ne m k)

theorem natLt_order : KeyOrder natLt :=
  ⟨fun a b c => by simp only [natLt, decide_eq_true_eq]; omega, fun a b => by simp only [natLt]; simp; omega⟩

theorem pinLt_order : KeyOrder pinLt := by
  refine ⟨fun a b c => by simp only [pinLt, decide_eq_true_eq]; omega, fun a b hne h => ?_⟩
  have : a.toNat ≠ b.toNat := fun e => hne (BitVec.eq_of_toNat_eq e)
  simp only [pinLt, decide_eq_false_iff_not, decide_eq_true_eq] at h ⊢
  omega

theorem chanLt_order : KeyOrder chanLt := by
  refine ⟨fun a b c => ?_, fun a b hne h => ?_⟩
  · simp only [chanLt, Bool.or_eq_true, Bool.and_eq_true, decide_eq_true_eq, beq_iff_eq]
    omega
  · obtain ⟨a1, a2⟩ := a
    obtain ⟨b1, b2⟩ := b
    simp only [chanLt, Bool.or_eq_true, Bool.and_eq_true, decide_eq_true_eq, beq_iff_eq, Bool.or_eq_false_iff,
      Bool.and_eq_false_iff, decide_eq_false_iff_not, ne_eq, Chan.mk.injEq, not_and] at *
    by_cases e : a1 = b1
    · have := hne e
      rcases h with ⟨_, h | h⟩
      · simp_all
      · omega
    · simp only [beq_eq_false_iff_ne] at h
      omega

end Sys2Proof.Machine
end

