-- ==== Sys2Proof/Laws/State.lean ====
section
/-! SUPPORT. What each update of the state does to each field and to each register's reader: one lemma per field per
update. A read of a register after its own write is the law of a register file. -/

namespace Sys2Proof.Machine

/-! ### State.setBound -/

@[simp] theorem State.setBound_platform (s : State) (h : Nat) (b : Bool) : (s.setBound h b).platform = s.platform := rfl
@[simp] theorem State.setBound_stream (s : State) (h : Nat) (b : Bool) : (s.setBound h b).stream = s.stream := rfl
@[simp] theorem State.setBound_turns (s : State) (h : Nat) (b : Bool) : (s.setBound h b).turns = s.turns := rfl
@[simp] theorem State.setBound_cpc (s : State) (h : Nat) (b : Bool) : (s.setBound h b).cpc = s.cpc := rfl
@[simp] theorem State.setBound_bound (s : State) (h : Nat) (b : Bool) : (s.setBound h b).bound = regSet natLt false s.bound h b := rfl
@[simp] theorem State.setBound_pin (s : State) (h : Nat) (b : Bool) : (s.setBound h b).pin = s.pin := rfl
@[simp] theorem State.setBound_cfg (s : State) (h : Nat) (b : Bool) : (s.setBound h b).cfg = s.cfg := rfl
@[simp] theorem State.setBound_mode (s : State) (h : Nat) (b : Bool) : (s.setBound h b).mode = s.mode := rfl
@[simp] theorem State.setBound_top (s : State) (h : Nat) (b : Bool) : (s.setBound h b).top = s.top := rfl
@[simp] theorem State.setBound_phase (s : State) (h : Nat) (b : Bool) : (s.setBound h b).phase = s.phase := rfl
@[simp] theorem State.setBound_cmp (s : State) (h : Nat) (b : Bool) : (s.setBound h b).cmp = s.cmp := rfl
@[simp] theorem State.setBound_en (s : State) (h : Nat) (b : Bool) : (s.setBound h b).en = s.en := rfl
@[simp] theorem State.setBound_dir (s : State) (h : Nat) (b : Bool) : (s.setBound h b).dir = s.dir := rfl
@[simp] theorem State.setBound_latch (s : State) (h : Nat) (b : Bool) : (s.setBound h b).latch = s.latch := rfl
@[simp] theorem State.setBound_resp (s : State) (h : Nat) (b : Bool) : (s.setBound h b).resp = s.resp := rfl
@[simp] theorem State.setBound_errlog (s : State) (h : Nat) (b : Bool) : (s.setBound h b).errlog = s.errlog := rfl
@[simp] theorem State.setBound_fault (s : State) (h : Nat) (b : Bool) : (s.setBound h b).fault = s.fault := rfl
@[simp] theorem State.setBound_trace (s : State) (h : Nat) (b : Bool) : (s.setBound h b).trace = s.trace := rfl
@[simp] theorem State.boundAt_setBound (s : State) (h : Nat) (b : Bool) (h' : Nat) : (s.setBound h b).boundAt h' = if h = h' then b else s.boundAt h' :=
  regGet_regSet natLt false s.bound h h' (b)
@[simp] theorem State.pinAt_setBound (s : State) (h : Nat) (b : Bool) (h' : Nat) : (s.setBound h b).pinAt h' = s.pinAt h' := rfl
@[simp] theorem State.cfgAt_setBound (s : State) (h : Nat) (b : Bool) (h' : Nat) : (s.setBound h b).cfgAt h' = s.cfgAt h' := rfl
@[simp] theorem State.modeAt_setBound (s : State) (h : Nat) (b : Bool) (t : Nat) : (s.setBound h b).modeAt t = s.modeAt t := rfl
@[simp] theorem State.topAt_setBound (s : State) (h : Nat) (b : Bool) (t : Nat) : (s.setBound h b).topAt t = s.topAt t := rfl
@[simp] theorem State.phaseAt_setBound (s : State) (h : Nat) (b : Bool) (t : Nat) : (s.setBound h b).phaseAt t = s.phaseAt t := rfl
@[simp] theorem State.cmpAt_setBound (s : State) (h : Nat) (b : Bool) (ch : Chan) : (s.setBound h b).cmpAt ch = s.cmpAt ch := rfl
@[simp] theorem State.enAt_setBound (s : State) (h : Nat) (b : Bool) (ch : Chan) : (s.setBound h b).enAt ch = s.enAt ch := rfl
@[simp] theorem State.dirAt_setBound (s : State) (h : Nat) (b : Bool) (p : PinId) : (s.setBound h b).dirAt p = s.dirAt p := rfl
@[simp] theorem State.latchAt_setBound (s : State) (h : Nat) (b : Bool) (p : PinId) : (s.setBound h b).latchAt p = s.latchAt p := rfl

/-! ### State.setPin -/

@[simp] theorem State.setPin_platform (s : State) (h : Nat) (p : PinId) : (s.setPin h p).platform = s.platform := rfl
@[simp] theorem State.setPin_stream (s : State) (h : Nat) (p : PinId) : (s.setPin h p).stream = s.stream := rfl
@[simp] theorem State.setPin_turns (s : State) (h : Nat) (p : PinId) : (s.setPin h p).turns = s.turns := rfl
@[simp] theorem State.setPin_cpc (s : State) (h : Nat) (p : PinId) : (s.setPin h p).cpc = s.cpc := rfl
@[simp] theorem State.setPin_bound (s : State) (h : Nat) (p : PinId) : (s.setPin h p).bound = s.bound := rfl
@[simp] theorem State.setPin_pin (s : State) (h : Nat) (p : PinId) : (s.setPin h p).pin = regSet natLt none s.pin h (some p) := rfl
@[simp] theorem State.setPin_cfg (s : State) (h : Nat) (p : PinId) : (s.setPin h p).cfg = s.cfg := rfl
@[simp] theorem State.setPin_mode (s : State) (h : Nat) (p : PinId) : (s.setPin h p).mode = s.mode := rfl
@[simp] theorem State.setPin_top (s : State) (h : Nat) (p : PinId) : (s.setPin h p).top = s.top := rfl
@[simp] theorem State.setPin_phase (s : State) (h : Nat) (p : PinId) : (s.setPin h p).phase = s.phase := rfl
@[simp] theorem State.setPin_cmp (s : State) (h : Nat) (p : PinId) : (s.setPin h p).cmp = s.cmp := rfl
@[simp] theorem State.setPin_en (s : State) (h : Nat) (p : PinId) : (s.setPin h p).en = s.en := rfl
@[simp] theorem State.setPin_dir (s : State) (h : Nat) (p : PinId) : (s.setPin h p).dir = s.dir := rfl
@[simp] theorem State.setPin_latch (s : State) (h : Nat) (p : PinId) : (s.setPin h p).latch = s.latch := rfl
@[simp] theorem State.setPin_resp (s : State) (h : Nat) (p : PinId) : (s.setPin h p).resp = s.resp := rfl
@[simp] theorem State.setPin_errlog (s : State) (h : Nat) (p : PinId) : (s.setPin h p).errlog = s.errlog := rfl
@[simp] theorem State.setPin_fault (s : State) (h : Nat) (p : PinId) : (s.setPin h p).fault = s.fault := rfl
@[simp] theorem State.setPin_trace (s : State) (h : Nat) (p : PinId) : (s.setPin h p).trace = s.trace := rfl
@[simp] theorem State.boundAt_setPin (s : State) (h : Nat) (p : PinId) (h' : Nat) : (s.setPin h p).boundAt h' = s.boundAt h' := rfl
@[simp] theorem State.pinAt_setPin (s : State) (h : Nat) (p : PinId) (h' : Nat) : (s.setPin h p).pinAt h' = if h = h' then some p else s.pinAt h' :=
  regGet_regSet natLt none s.pin h h' (some p)
@[simp] theorem State.cfgAt_setPin (s : State) (h : Nat) (p : PinId) (h' : Nat) : (s.setPin h p).cfgAt h' = s.cfgAt h' := rfl
@[simp] theorem State.modeAt_setPin (s : State) (h : Nat) (p : PinId) (t : Nat) : (s.setPin h p).modeAt t = s.modeAt t := rfl
@[simp] theorem State.topAt_setPin (s : State) (h : Nat) (p : PinId) (t : Nat) : (s.setPin h p).topAt t = s.topAt t := rfl
@[simp] theorem State.phaseAt_setPin (s : State) (h : Nat) (p : PinId) (t : Nat) : (s.setPin h p).phaseAt t = s.phaseAt t := rfl
@[simp] theorem State.cmpAt_setPin (s : State) (h : Nat) (p : PinId) (ch : Chan) : (s.setPin h p).cmpAt ch = s.cmpAt ch := rfl
@[simp] theorem State.enAt_setPin (s : State) (h : Nat) (p : PinId) (ch : Chan) : (s.setPin h p).enAt ch = s.enAt ch := rfl
@[simp] theorem State.dirAt_setPin (s : State) (h : Nat) (p : PinId) (p' : PinId) : (s.setPin h p).dirAt p' = s.dirAt p' := rfl
@[simp] theorem State.latchAt_setPin (s : State) (h : Nat) (p : PinId) (p' : PinId) : (s.setPin h p).latchAt p' = s.latchAt p' := rfl

/-! ### State.setCfg -/

@[simp] theorem State.setCfg_platform (s : State) (h : Nat) (b : Bool) : (s.setCfg h b).platform = s.platform := rfl
@[simp] theorem State.setCfg_stream (s : State) (h : Nat) (b : Bool) : (s.setCfg h b).stream = s.stream := rfl
@[simp] theorem State.setCfg_turns (s : State) (h : Nat) (b : Bool) : (s.setCfg h b).turns = s.turns := rfl
@[simp] theorem State.setCfg_cpc (s : State) (h : Nat) (b : Bool) : (s.setCfg h b).cpc = s.cpc := rfl
@[simp] theorem State.setCfg_bound (s : State) (h : Nat) (b : Bool) : (s.setCfg h b).bound = s.bound := rfl
@[simp] theorem State.setCfg_pin (s : State) (h : Nat) (b : Bool) : (s.setCfg h b).pin = s.pin := rfl
@[simp] theorem State.setCfg_cfg (s : State) (h : Nat) (b : Bool) : (s.setCfg h b).cfg = regSet natLt false s.cfg h b := rfl
@[simp] theorem State.setCfg_mode (s : State) (h : Nat) (b : Bool) : (s.setCfg h b).mode = s.mode := rfl
@[simp] theorem State.setCfg_top (s : State) (h : Nat) (b : Bool) : (s.setCfg h b).top = s.top := rfl
@[simp] theorem State.setCfg_phase (s : State) (h : Nat) (b : Bool) : (s.setCfg h b).phase = s.phase := rfl
@[simp] theorem State.setCfg_cmp (s : State) (h : Nat) (b : Bool) : (s.setCfg h b).cmp = s.cmp := rfl
@[simp] theorem State.setCfg_en (s : State) (h : Nat) (b : Bool) : (s.setCfg h b).en = s.en := rfl
@[simp] theorem State.setCfg_dir (s : State) (h : Nat) (b : Bool) : (s.setCfg h b).dir = s.dir := rfl
@[simp] theorem State.setCfg_latch (s : State) (h : Nat) (b : Bool) : (s.setCfg h b).latch = s.latch := rfl
@[simp] theorem State.setCfg_resp (s : State) (h : Nat) (b : Bool) : (s.setCfg h b).resp = s.resp := rfl
@[simp] theorem State.setCfg_errlog (s : State) (h : Nat) (b : Bool) : (s.setCfg h b).errlog = s.errlog := rfl
@[simp] theorem State.setCfg_fault (s : State) (h : Nat) (b : Bool) : (s.setCfg h b).fault = s.fault := rfl
@[simp] theorem State.setCfg_trace (s : State) (h : Nat) (b : Bool) : (s.setCfg h b).trace = s.trace := rfl
@[simp] theorem State.boundAt_setCfg (s : State) (h : Nat) (b : Bool) (h' : Nat) : (s.setCfg h b).boundAt h' = s.boundAt h' := rfl
@[simp] theorem State.pinAt_setCfg (s : State) (h : Nat) (b : Bool) (h' : Nat) : (s.setCfg h b).pinAt h' = s.pinAt h' := rfl
@[simp] theorem State.cfgAt_setCfg (s : State) (h : Nat) (b : Bool) (h' : Nat) : (s.setCfg h b).cfgAt h' = if h = h' then b else s.cfgAt h' :=
  regGet_regSet natLt false s.cfg h h' (b)
@[simp] theorem State.modeAt_setCfg (s : State) (h : Nat) (b : Bool) (t : Nat) : (s.setCfg h b).modeAt t = s.modeAt t := rfl
@[simp] theorem State.topAt_setCfg (s : State) (h : Nat) (b : Bool) (t : Nat) : (s.setCfg h b).topAt t = s.topAt t := rfl
@[simp] theorem State.phaseAt_setCfg (s : State) (h : Nat) (b : Bool) (t : Nat) : (s.setCfg h b).phaseAt t = s.phaseAt t := rfl
@[simp] theorem State.cmpAt_setCfg (s : State) (h : Nat) (b : Bool) (ch : Chan) : (s.setCfg h b).cmpAt ch = s.cmpAt ch := rfl
@[simp] theorem State.enAt_setCfg (s : State) (h : Nat) (b : Bool) (ch : Chan) : (s.setCfg h b).enAt ch = s.enAt ch := rfl
@[simp] theorem State.dirAt_setCfg (s : State) (h : Nat) (b : Bool) (p : PinId) : (s.setCfg h b).dirAt p = s.dirAt p := rfl
@[simp] theorem State.latchAt_setCfg (s : State) (h : Nat) (b : Bool) (p : PinId) : (s.setCfg h b).latchAt p = s.latchAt p := rfl

/-! ### State.setMode -/

@[simp] theorem State.setMode_platform (s : State) (t : Nat) (m : Mode) : (s.setMode t m).platform = s.platform := rfl
@[simp] theorem State.setMode_stream (s : State) (t : Nat) (m : Mode) : (s.setMode t m).stream = s.stream := rfl
@[simp] theorem State.setMode_turns (s : State) (t : Nat) (m : Mode) : (s.setMode t m).turns = s.turns := rfl
@[simp] theorem State.setMode_cpc (s : State) (t : Nat) (m : Mode) : (s.setMode t m).cpc = s.cpc := rfl
@[simp] theorem State.setMode_bound (s : State) (t : Nat) (m : Mode) : (s.setMode t m).bound = s.bound := rfl
@[simp] theorem State.setMode_pin (s : State) (t : Nat) (m : Mode) : (s.setMode t m).pin = s.pin := rfl
@[simp] theorem State.setMode_cfg (s : State) (t : Nat) (m : Mode) : (s.setMode t m).cfg = s.cfg := rfl
@[simp] theorem State.setMode_mode (s : State) (t : Nat) (m : Mode) : (s.setMode t m).mode = regSet natLt .stopped s.mode t m := rfl
@[simp] theorem State.setMode_top (s : State) (t : Nat) (m : Mode) : (s.setMode t m).top = s.top := rfl
@[simp] theorem State.setMode_phase (s : State) (t : Nat) (m : Mode) : (s.setMode t m).phase = s.phase := rfl
@[simp] theorem State.setMode_cmp (s : State) (t : Nat) (m : Mode) : (s.setMode t m).cmp = s.cmp := rfl
@[simp] theorem State.setMode_en (s : State) (t : Nat) (m : Mode) : (s.setMode t m).en = s.en := rfl
@[simp] theorem State.setMode_dir (s : State) (t : Nat) (m : Mode) : (s.setMode t m).dir = s.dir := rfl
@[simp] theorem State.setMode_latch (s : State) (t : Nat) (m : Mode) : (s.setMode t m).latch = s.latch := rfl
@[simp] theorem State.setMode_resp (s : State) (t : Nat) (m : Mode) : (s.setMode t m).resp = s.resp := rfl
@[simp] theorem State.setMode_errlog (s : State) (t : Nat) (m : Mode) : (s.setMode t m).errlog = s.errlog := rfl
@[simp] theorem State.setMode_fault (s : State) (t : Nat) (m : Mode) : (s.setMode t m).fault = s.fault := rfl
@[simp] theorem State.setMode_trace (s : State) (t : Nat) (m : Mode) : (s.setMode t m).trace = s.trace := rfl
@[simp] theorem State.boundAt_setMode (s : State) (t : Nat) (m : Mode) (h : Nat) : (s.setMode t m).boundAt h = s.boundAt h := rfl
@[simp] theorem State.pinAt_setMode (s : State) (t : Nat) (m : Mode) (h : Nat) : (s.setMode t m).pinAt h = s.pinAt h := rfl
@[simp] theorem State.cfgAt_setMode (s : State) (t : Nat) (m : Mode) (h : Nat) : (s.setMode t m).cfgAt h = s.cfgAt h := rfl
@[simp] theorem State.modeAt_setMode (s : State) (t : Nat) (m : Mode) (t' : Nat) : (s.setMode t m).modeAt t' = if t = t' then m else s.modeAt t' :=
  regGet_regSet natLt Mode.stopped s.mode t t' (m)
@[simp] theorem State.topAt_setMode (s : State) (t : Nat) (m : Mode) (t' : Nat) : (s.setMode t m).topAt t' = s.topAt t' := rfl
@[simp] theorem State.phaseAt_setMode (s : State) (t : Nat) (m : Mode) (t' : Nat) : (s.setMode t m).phaseAt t' = s.phaseAt t' := rfl
@[simp] theorem State.cmpAt_setMode (s : State) (t : Nat) (m : Mode) (ch : Chan) : (s.setMode t m).cmpAt ch = s.cmpAt ch := rfl
@[simp] theorem State.enAt_setMode (s : State) (t : Nat) (m : Mode) (ch : Chan) : (s.setMode t m).enAt ch = s.enAt ch := rfl
@[simp] theorem State.dirAt_setMode (s : State) (t : Nat) (m : Mode) (p : PinId) : (s.setMode t m).dirAt p = s.dirAt p := rfl
@[simp] theorem State.latchAt_setMode (s : State) (t : Nat) (m : Mode) (p : PinId) : (s.setMode t m).latchAt p = s.latchAt p := rfl

/-! ### State.setTop -/

@[simp] theorem State.setTop_platform (s : State) (t v : Nat) : (s.setTop t v).platform = s.platform := rfl
@[simp] theorem State.setTop_stream (s : State) (t v : Nat) : (s.setTop t v).stream = s.stream := rfl
@[simp] theorem State.setTop_turns (s : State) (t v : Nat) : (s.setTop t v).turns = s.turns := rfl
@[simp] theorem State.setTop_cpc (s : State) (t v : Nat) : (s.setTop t v).cpc = s.cpc := rfl
@[simp] theorem State.setTop_bound (s : State) (t v : Nat) : (s.setTop t v).bound = s.bound := rfl
@[simp] theorem State.setTop_pin (s : State) (t v : Nat) : (s.setTop t v).pin = s.pin := rfl
@[simp] theorem State.setTop_cfg (s : State) (t v : Nat) : (s.setTop t v).cfg = s.cfg := rfl
@[simp] theorem State.setTop_mode (s : State) (t v : Nat) : (s.setTop t v).mode = s.mode := rfl
@[simp] theorem State.setTop_top (s : State) (t v : Nat) : (s.setTop t v).top = regSet natLt none s.top t (some v) := rfl
@[simp] theorem State.setTop_phase (s : State) (t v : Nat) : (s.setTop t v).phase = s.phase := rfl
@[simp] theorem State.setTop_cmp (s : State) (t v : Nat) : (s.setTop t v).cmp = s.cmp := rfl
@[simp] theorem State.setTop_en (s : State) (t v : Nat) : (s.setTop t v).en = s.en := rfl
@[simp] theorem State.setTop_dir (s : State) (t v : Nat) : (s.setTop t v).dir = s.dir := rfl
@[simp] theorem State.setTop_latch (s : State) (t v : Nat) : (s.setTop t v).latch = s.latch := rfl
@[simp] theorem State.setTop_resp (s : State) (t v : Nat) : (s.setTop t v).resp = s.resp := rfl
@[simp] theorem State.setTop_errlog (s : State) (t v : Nat) : (s.setTop t v).errlog = s.errlog := rfl
@[simp] theorem State.setTop_fault (s : State) (t v : Nat) : (s.setTop t v).fault = s.fault := rfl
@[simp] theorem State.setTop_trace (s : State) (t v : Nat) : (s.setTop t v).trace = s.trace := rfl
@[simp] theorem State.boundAt_setTop (s : State) (t v : Nat) (h : Nat) : (s.setTop t v).boundAt h = s.boundAt h := rfl
@[simp] theorem State.pinAt_setTop (s : State) (t v : Nat) (h : Nat) : (s.setTop t v).pinAt h = s.pinAt h := rfl
@[simp] theorem State.cfgAt_setTop (s : State) (t v : Nat) (h : Nat) : (s.setTop t v).cfgAt h = s.cfgAt h := rfl
@[simp] theorem State.modeAt_setTop (s : State) (t v : Nat) (t' : Nat) : (s.setTop t v).modeAt t' = s.modeAt t' := rfl
@[simp] theorem State.topAt_setTop (s : State) (t v : Nat) (t' : Nat) : (s.setTop t v).topAt t' = if t = t' then some v else s.topAt t' :=
  regGet_regSet natLt none s.top t t' (some v)
@[simp] theorem State.phaseAt_setTop (s : State) (t v : Nat) (t' : Nat) : (s.setTop t v).phaseAt t' = s.phaseAt t' := rfl
@[simp] theorem State.cmpAt_setTop (s : State) (t v : Nat) (ch : Chan) : (s.setTop t v).cmpAt ch = s.cmpAt ch := rfl
@[simp] theorem State.enAt_setTop (s : State) (t v : Nat) (ch : Chan) : (s.setTop t v).enAt ch = s.enAt ch := rfl
@[simp] theorem State.dirAt_setTop (s : State) (t v : Nat) (p : PinId) : (s.setTop t v).dirAt p = s.dirAt p := rfl
@[simp] theorem State.latchAt_setTop (s : State) (t v : Nat) (p : PinId) : (s.setTop t v).latchAt p = s.latchAt p := rfl

/-! ### State.setPhase -/

@[simp] theorem State.setPhase_platform (s : State) (t v : Nat) : (s.setPhase t v).platform = s.platform := rfl
@[simp] theorem State.setPhase_stream (s : State) (t v : Nat) : (s.setPhase t v).stream = s.stream := rfl
@[simp] theorem State.setPhase_turns (s : State) (t v : Nat) : (s.setPhase t v).turns = s.turns := rfl
@[simp] theorem State.setPhase_cpc (s : State) (t v : Nat) : (s.setPhase t v).cpc = s.cpc := rfl
@[simp] theorem State.setPhase_bound (s : State) (t v : Nat) : (s.setPhase t v).bound = s.bound := rfl
@[simp] theorem State.setPhase_pin (s : State) (t v : Nat) : (s.setPhase t v).pin = s.pin := rfl
@[simp] theorem State.setPhase_cfg (s : State) (t v : Nat) : (s.setPhase t v).cfg = s.cfg := rfl
@[simp] theorem State.setPhase_mode (s : State) (t v : Nat) : (s.setPhase t v).mode = s.mode := rfl
@[simp] theorem State.setPhase_top (s : State) (t v : Nat) : (s.setPhase t v).top = s.top := rfl
@[simp] theorem State.setPhase_phase (s : State) (t v : Nat) : (s.setPhase t v).phase = regSet natLt 0 s.phase t v := rfl
@[simp] theorem State.setPhase_cmp (s : State) (t v : Nat) : (s.setPhase t v).cmp = s.cmp := rfl
@[simp] theorem State.setPhase_en (s : State) (t v : Nat) : (s.setPhase t v).en = s.en := rfl
@[simp] theorem State.setPhase_dir (s : State) (t v : Nat) : (s.setPhase t v).dir = s.dir := rfl
@[simp] theorem State.setPhase_latch (s : State) (t v : Nat) : (s.setPhase t v).latch = s.latch := rfl
@[simp] theorem State.setPhase_resp (s : State) (t v : Nat) : (s.setPhase t v).resp = s.resp := rfl
@[simp] theorem State.setPhase_errlog (s : State) (t v : Nat) : (s.setPhase t v).errlog = s.errlog := rfl
@[simp] theorem State.setPhase_fault (s : State) (t v : Nat) : (s.setPhase t v).fault = s.fault := rfl
@[simp] theorem State.setPhase_trace (s : State) (t v : Nat) : (s.setPhase t v).trace = s.trace := rfl
@[simp] theorem State.boundAt_setPhase (s : State) (t v : Nat) (h : Nat) : (s.setPhase t v).boundAt h = s.boundAt h := rfl
@[simp] theorem State.pinAt_setPhase (s : State) (t v : Nat) (h : Nat) : (s.setPhase t v).pinAt h = s.pinAt h := rfl
@[simp] theorem State.cfgAt_setPhase (s : State) (t v : Nat) (h : Nat) : (s.setPhase t v).cfgAt h = s.cfgAt h := rfl
@[simp] theorem State.modeAt_setPhase (s : State) (t v : Nat) (t' : Nat) : (s.setPhase t v).modeAt t' = s.modeAt t' := rfl
@[simp] theorem State.topAt_setPhase (s : State) (t v : Nat) (t' : Nat) : (s.setPhase t v).topAt t' = s.topAt t' := rfl
@[simp] theorem State.phaseAt_setPhase (s : State) (t v : Nat) (t' : Nat) : (s.setPhase t v).phaseAt t' = if t = t' then v else s.phaseAt t' :=
  regGet_regSet natLt 0 s.phase t t' (v)
@[simp] theorem State.cmpAt_setPhase (s : State) (t v : Nat) (ch : Chan) : (s.setPhase t v).cmpAt ch = s.cmpAt ch := rfl
@[simp] theorem State.enAt_setPhase (s : State) (t v : Nat) (ch : Chan) : (s.setPhase t v).enAt ch = s.enAt ch := rfl
@[simp] theorem State.dirAt_setPhase (s : State) (t v : Nat) (p : PinId) : (s.setPhase t v).dirAt p = s.dirAt p := rfl
@[simp] theorem State.latchAt_setPhase (s : State) (t v : Nat) (p : PinId) : (s.setPhase t v).latchAt p = s.latchAt p := rfl

/-! ### State.setCmp -/

@[simp] theorem State.setCmp_platform (s : State) (ch : Chan) (v : Nat) : (s.setCmp ch v).platform = s.platform := rfl
@[simp] theorem State.setCmp_stream (s : State) (ch : Chan) (v : Nat) : (s.setCmp ch v).stream = s.stream := rfl
@[simp] theorem State.setCmp_turns (s : State) (ch : Chan) (v : Nat) : (s.setCmp ch v).turns = s.turns := rfl
@[simp] theorem State.setCmp_cpc (s : State) (ch : Chan) (v : Nat) : (s.setCmp ch v).cpc = s.cpc := rfl
@[simp] theorem State.setCmp_bound (s : State) (ch : Chan) (v : Nat) : (s.setCmp ch v).bound = s.bound := rfl
@[simp] theorem State.setCmp_pin (s : State) (ch : Chan) (v : Nat) : (s.setCmp ch v).pin = s.pin := rfl
@[simp] theorem State.setCmp_cfg (s : State) (ch : Chan) (v : Nat) : (s.setCmp ch v).cfg = s.cfg := rfl
@[simp] theorem State.setCmp_mode (s : State) (ch : Chan) (v : Nat) : (s.setCmp ch v).mode = s.mode := rfl
@[simp] theorem State.setCmp_top (s : State) (ch : Chan) (v : Nat) : (s.setCmp ch v).top = s.top := rfl
@[simp] theorem State.setCmp_phase (s : State) (ch : Chan) (v : Nat) : (s.setCmp ch v).phase = s.phase := rfl
@[simp] theorem State.setCmp_cmp (s : State) (ch : Chan) (v : Nat) : (s.setCmp ch v).cmp = regSet chanLt none s.cmp ch (some v) := rfl
@[simp] theorem State.setCmp_en (s : State) (ch : Chan) (v : Nat) : (s.setCmp ch v).en = s.en := rfl
@[simp] theorem State.setCmp_dir (s : State) (ch : Chan) (v : Nat) : (s.setCmp ch v).dir = s.dir := rfl
@[simp] theorem State.setCmp_latch (s : State) (ch : Chan) (v : Nat) : (s.setCmp ch v).latch = s.latch := rfl
@[simp] theorem State.setCmp_resp (s : State) (ch : Chan) (v : Nat) : (s.setCmp ch v).resp = s.resp := rfl
@[simp] theorem State.setCmp_errlog (s : State) (ch : Chan) (v : Nat) : (s.setCmp ch v).errlog = s.errlog := rfl
@[simp] theorem State.setCmp_fault (s : State) (ch : Chan) (v : Nat) : (s.setCmp ch v).fault = s.fault := rfl
@[simp] theorem State.setCmp_trace (s : State) (ch : Chan) (v : Nat) : (s.setCmp ch v).trace = s.trace := rfl
@[simp] theorem State.boundAt_setCmp (s : State) (ch : Chan) (v : Nat) (h : Nat) : (s.setCmp ch v).boundAt h = s.boundAt h := rfl
@[simp] theorem State.pinAt_setCmp (s : State) (ch : Chan) (v : Nat) (h : Nat) : (s.setCmp ch v).pinAt h = s.pinAt h := rfl
@[simp] theorem State.cfgAt_setCmp (s : State) (ch : Chan) (v : Nat) (h : Nat) : (s.setCmp ch v).cfgAt h = s.cfgAt h := rfl
@[simp] theorem State.modeAt_setCmp (s : State) (ch : Chan) (v : Nat) (t : Nat) : (s.setCmp ch v).modeAt t = s.modeAt t := rfl
@[simp] theorem State.topAt_setCmp (s : State) (ch : Chan) (v : Nat) (t : Nat) : (s.setCmp ch v).topAt t = s.topAt t := rfl
@[simp] theorem State.phaseAt_setCmp (s : State) (ch : Chan) (v : Nat) (t : Nat) : (s.setCmp ch v).phaseAt t = s.phaseAt t := rfl
@[simp] theorem State.cmpAt_setCmp (s : State) (ch : Chan) (v : Nat) (ch' : Chan) : (s.setCmp ch v).cmpAt ch' = if ch = ch' then some v else s.cmpAt ch' :=
  regGet_regSet chanLt none s.cmp ch ch' (some v)
@[simp] theorem State.enAt_setCmp (s : State) (ch : Chan) (v : Nat) (ch' : Chan) : (s.setCmp ch v).enAt ch' = s.enAt ch' := rfl
@[simp] theorem State.dirAt_setCmp (s : State) (ch : Chan) (v : Nat) (p : PinId) : (s.setCmp ch v).dirAt p = s.dirAt p := rfl
@[simp] theorem State.latchAt_setCmp (s : State) (ch : Chan) (v : Nat) (p : PinId) : (s.setCmp ch v).latchAt p = s.latchAt p := rfl

/-! ### State.setEn -/

@[simp] theorem State.setEn_platform (s : State) (ch : Chan) (b : Bool) : (s.setEn ch b).platform = s.platform := rfl
@[simp] theorem State.setEn_stream (s : State) (ch : Chan) (b : Bool) : (s.setEn ch b).stream = s.stream := rfl
@[simp] theorem State.setEn_turns (s : State) (ch : Chan) (b : Bool) : (s.setEn ch b).turns = s.turns := rfl
@[simp] theorem State.setEn_cpc (s : State) (ch : Chan) (b : Bool) : (s.setEn ch b).cpc = s.cpc := rfl
@[simp] theorem State.setEn_bound (s : State) (ch : Chan) (b : Bool) : (s.setEn ch b).bound = s.bound := rfl
@[simp] theorem State.setEn_pin (s : State) (ch : Chan) (b : Bool) : (s.setEn ch b).pin = s.pin := rfl
@[simp] theorem State.setEn_cfg (s : State) (ch : Chan) (b : Bool) : (s.setEn ch b).cfg = s.cfg := rfl
@[simp] theorem State.setEn_mode (s : State) (ch : Chan) (b : Bool) : (s.setEn ch b).mode = s.mode := rfl
@[simp] theorem State.setEn_top (s : State) (ch : Chan) (b : Bool) : (s.setEn ch b).top = s.top := rfl
@[simp] theorem State.setEn_phase (s : State) (ch : Chan) (b : Bool) : (s.setEn ch b).phase = s.phase := rfl
@[simp] theorem State.setEn_cmp (s : State) (ch : Chan) (b : Bool) : (s.setEn ch b).cmp = s.cmp := rfl
@[simp] theorem State.setEn_en (s : State) (ch : Chan) (b : Bool) : (s.setEn ch b).en = regSet chanLt false s.en ch b := rfl
@[simp] theorem State.setEn_dir (s : State) (ch : Chan) (b : Bool) : (s.setEn ch b).dir = s.dir := rfl
@[simp] theorem State.setEn_latch (s : State) (ch : Chan) (b : Bool) : (s.setEn ch b).latch = s.latch := rfl
@[simp] theorem State.setEn_resp (s : State) (ch : Chan) (b : Bool) : (s.setEn ch b).resp = s.resp := rfl
@[simp] theorem State.setEn_errlog (s : State) (ch : Chan) (b : Bool) : (s.setEn ch b).errlog = s.errlog := rfl
@[simp] theorem State.setEn_fault (s : State) (ch : Chan) (b : Bool) : (s.setEn ch b).fault = s.fault := rfl
@[simp] theorem State.setEn_trace (s : State) (ch : Chan) (b : Bool) : (s.setEn ch b).trace = s.trace := rfl
@[simp] theorem State.boundAt_setEn (s : State) (ch : Chan) (b : Bool) (h : Nat) : (s.setEn ch b).boundAt h = s.boundAt h := rfl
@[simp] theorem State.pinAt_setEn (s : State) (ch : Chan) (b : Bool) (h : Nat) : (s.setEn ch b).pinAt h = s.pinAt h := rfl
@[simp] theorem State.cfgAt_setEn (s : State) (ch : Chan) (b : Bool) (h : Nat) : (s.setEn ch b).cfgAt h = s.cfgAt h := rfl
@[simp] theorem State.modeAt_setEn (s : State) (ch : Chan) (b : Bool) (t : Nat) : (s.setEn ch b).modeAt t = s.modeAt t := rfl
@[simp] theorem State.topAt_setEn (s : State) (ch : Chan) (b : Bool) (t : Nat) : (s.setEn ch b).topAt t = s.topAt t := rfl
@[simp] theorem State.phaseAt_setEn (s : State) (ch : Chan) (b : Bool) (t : Nat) : (s.setEn ch b).phaseAt t = s.phaseAt t := rfl
@[simp] theorem State.cmpAt_setEn (s : State) (ch : Chan) (b : Bool) (ch' : Chan) : (s.setEn ch b).cmpAt ch' = s.cmpAt ch' := rfl
@[simp] theorem State.enAt_setEn (s : State) (ch : Chan) (b : Bool) (ch' : Chan) : (s.setEn ch b).enAt ch' = if ch = ch' then b else s.enAt ch' :=
  regGet_regSet chanLt false s.en ch ch' (b)
@[simp] theorem State.dirAt_setEn (s : State) (ch : Chan) (b : Bool) (p : PinId) : (s.setEn ch b).dirAt p = s.dirAt p := rfl
@[simp] theorem State.latchAt_setEn (s : State) (ch : Chan) (b : Bool) (p : PinId) : (s.setEn ch b).latchAt p = s.latchAt p := rfl

/-! ### State.setDir -/

@[simp] theorem State.setDir_platform (s : State) (p : PinId) (d : Dir) : (s.setDir p d).platform = s.platform := rfl
@[simp] theorem State.setDir_stream (s : State) (p : PinId) (d : Dir) : (s.setDir p d).stream = s.stream := rfl
@[simp] theorem State.setDir_turns (s : State) (p : PinId) (d : Dir) : (s.setDir p d).turns = s.turns := rfl
@[simp] theorem State.setDir_cpc (s : State) (p : PinId) (d : Dir) : (s.setDir p d).cpc = s.cpc := rfl
@[simp] theorem State.setDir_bound (s : State) (p : PinId) (d : Dir) : (s.setDir p d).bound = s.bound := rfl
@[simp] theorem State.setDir_pin (s : State) (p : PinId) (d : Dir) : (s.setDir p d).pin = s.pin := rfl
@[simp] theorem State.setDir_cfg (s : State) (p : PinId) (d : Dir) : (s.setDir p d).cfg = s.cfg := rfl
@[simp] theorem State.setDir_mode (s : State) (p : PinId) (d : Dir) : (s.setDir p d).mode = s.mode := rfl
@[simp] theorem State.setDir_top (s : State) (p : PinId) (d : Dir) : (s.setDir p d).top = s.top := rfl
@[simp] theorem State.setDir_phase (s : State) (p : PinId) (d : Dir) : (s.setDir p d).phase = s.phase := rfl
@[simp] theorem State.setDir_cmp (s : State) (p : PinId) (d : Dir) : (s.setDir p d).cmp = s.cmp := rfl
@[simp] theorem State.setDir_en (s : State) (p : PinId) (d : Dir) : (s.setDir p d).en = s.en := rfl
@[simp] theorem State.setDir_dir (s : State) (p : PinId) (d : Dir) : (s.setDir p d).dir = regSet pinLt .inp s.dir p d := rfl
@[simp] theorem State.setDir_latch (s : State) (p : PinId) (d : Dir) : (s.setDir p d).latch = s.latch := rfl
@[simp] theorem State.setDir_resp (s : State) (p : PinId) (d : Dir) : (s.setDir p d).resp = s.resp := rfl
@[simp] theorem State.setDir_errlog (s : State) (p : PinId) (d : Dir) : (s.setDir p d).errlog = s.errlog := rfl
@[simp] theorem State.setDir_fault (s : State) (p : PinId) (d : Dir) : (s.setDir p d).fault = s.fault := rfl
@[simp] theorem State.setDir_trace (s : State) (p : PinId) (d : Dir) : (s.setDir p d).trace = s.trace := rfl
@[simp] theorem State.boundAt_setDir (s : State) (p : PinId) (d : Dir) (h : Nat) : (s.setDir p d).boundAt h = s.boundAt h := rfl
@[simp] theorem State.pinAt_setDir (s : State) (p : PinId) (d : Dir) (h : Nat) : (s.setDir p d).pinAt h = s.pinAt h := rfl
@[simp] theorem State.cfgAt_setDir (s : State) (p : PinId) (d : Dir) (h : Nat) : (s.setDir p d).cfgAt h = s.cfgAt h := rfl
@[simp] theorem State.modeAt_setDir (s : State) (p : PinId) (d : Dir) (t : Nat) : (s.setDir p d).modeAt t = s.modeAt t := rfl
@[simp] theorem State.topAt_setDir (s : State) (p : PinId) (d : Dir) (t : Nat) : (s.setDir p d).topAt t = s.topAt t := rfl
@[simp] theorem State.phaseAt_setDir (s : State) (p : PinId) (d : Dir) (t : Nat) : (s.setDir p d).phaseAt t = s.phaseAt t := rfl
@[simp] theorem State.cmpAt_setDir (s : State) (p : PinId) (d : Dir) (ch : Chan) : (s.setDir p d).cmpAt ch = s.cmpAt ch := rfl
@[simp] theorem State.enAt_setDir (s : State) (p : PinId) (d : Dir) (ch : Chan) : (s.setDir p d).enAt ch = s.enAt ch := rfl
@[simp] theorem State.dirAt_setDir (s : State) (p : PinId) (d : Dir) (p' : PinId) : (s.setDir p d).dirAt p' = if p = p' then d else s.dirAt p' :=
  regGet_regSet pinLt Dir.inp s.dir p p' (d)
@[simp] theorem State.latchAt_setDir (s : State) (p : PinId) (d : Dir) (p' : PinId) : (s.setDir p d).latchAt p' = s.latchAt p' := rfl

/-! ### State.setLatch -/

@[simp] theorem State.setLatch_platform (s : State) (p : PinId) (b : Bool) : (s.setLatch p b).platform = s.platform := rfl
@[simp] theorem State.setLatch_stream (s : State) (p : PinId) (b : Bool) : (s.setLatch p b).stream = s.stream := rfl
@[simp] theorem State.setLatch_turns (s : State) (p : PinId) (b : Bool) : (s.setLatch p b).turns = s.turns := rfl
@[simp] theorem State.setLatch_cpc (s : State) (p : PinId) (b : Bool) : (s.setLatch p b).cpc = s.cpc := rfl
@[simp] theorem State.setLatch_bound (s : State) (p : PinId) (b : Bool) : (s.setLatch p b).bound = s.bound := rfl
@[simp] theorem State.setLatch_pin (s : State) (p : PinId) (b : Bool) : (s.setLatch p b).pin = s.pin := rfl
@[simp] theorem State.setLatch_cfg (s : State) (p : PinId) (b : Bool) : (s.setLatch p b).cfg = s.cfg := rfl
@[simp] theorem State.setLatch_mode (s : State) (p : PinId) (b : Bool) : (s.setLatch p b).mode = s.mode := rfl
@[simp] theorem State.setLatch_top (s : State) (p : PinId) (b : Bool) : (s.setLatch p b).top = s.top := rfl
@[simp] theorem State.setLatch_phase (s : State) (p : PinId) (b : Bool) : (s.setLatch p b).phase = s.phase := rfl
@[simp] theorem State.setLatch_cmp (s : State) (p : PinId) (b : Bool) : (s.setLatch p b).cmp = s.cmp := rfl
@[simp] theorem State.setLatch_en (s : State) (p : PinId) (b : Bool) : (s.setLatch p b).en = s.en := rfl
@[simp] theorem State.setLatch_dir (s : State) (p : PinId) (b : Bool) : (s.setLatch p b).dir = s.dir := rfl
@[simp] theorem State.setLatch_latch (s : State) (p : PinId) (b : Bool) : (s.setLatch p b).latch = regSet pinLt false s.latch p b := rfl
@[simp] theorem State.setLatch_resp (s : State) (p : PinId) (b : Bool) : (s.setLatch p b).resp = s.resp := rfl
@[simp] theorem State.setLatch_errlog (s : State) (p : PinId) (b : Bool) : (s.setLatch p b).errlog = s.errlog := rfl
@[simp] theorem State.setLatch_fault (s : State) (p : PinId) (b : Bool) : (s.setLatch p b).fault = s.fault := rfl
@[simp] theorem State.setLatch_trace (s : State) (p : PinId) (b : Bool) : (s.setLatch p b).trace = s.trace := rfl
@[simp] theorem State.boundAt_setLatch (s : State) (p : PinId) (b : Bool) (h : Nat) : (s.setLatch p b).boundAt h = s.boundAt h := rfl
@[simp] theorem State.pinAt_setLatch (s : State) (p : PinId) (b : Bool) (h : Nat) : (s.setLatch p b).pinAt h = s.pinAt h := rfl
@[simp] theorem State.cfgAt_setLatch (s : State) (p : PinId) (b : Bool) (h : Nat) : (s.setLatch p b).cfgAt h = s.cfgAt h := rfl
@[simp] theorem State.modeAt_setLatch (s : State) (p : PinId) (b : Bool) (t : Nat) : (s.setLatch p b).modeAt t = s.modeAt t := rfl
@[simp] theorem State.topAt_setLatch (s : State) (p : PinId) (b : Bool) (t : Nat) : (s.setLatch p b).topAt t = s.topAt t := rfl
@[simp] theorem State.phaseAt_setLatch (s : State) (p : PinId) (b : Bool) (t : Nat) : (s.setLatch p b).phaseAt t = s.phaseAt t := rfl
@[simp] theorem State.cmpAt_setLatch (s : State) (p : PinId) (b : Bool) (ch : Chan) : (s.setLatch p b).cmpAt ch = s.cmpAt ch := rfl
@[simp] theorem State.enAt_setLatch (s : State) (p : PinId) (b : Bool) (ch : Chan) : (s.setLatch p b).enAt ch = s.enAt ch := rfl
@[simp] theorem State.dirAt_setLatch (s : State) (p : PinId) (b : Bool) (p' : PinId) : (s.setLatch p b).dirAt p' = s.dirAt p' := rfl
@[simp] theorem State.latchAt_setLatch (s : State) (p : PinId) (b : Bool) (p' : PinId) : (s.setLatch p b).latchAt p' = if p = p' then b else s.latchAt p' :=
  regGet_regSet pinLt false s.latch p p' (b)

/-! ### State.addEvent -/

@[simp] theorem State.addEvent_platform (s : State) (e : Event) : (s.addEvent e).platform = s.platform := rfl
@[simp] theorem State.addEvent_stream (s : State) (e : Event) : (s.addEvent e).stream = s.stream := rfl
@[simp] theorem State.addEvent_turns (s : State) (e : Event) : (s.addEvent e).turns = s.turns := rfl
@[simp] theorem State.addEvent_cpc (s : State) (e : Event) : (s.addEvent e).cpc = s.cpc := rfl
@[simp] theorem State.addEvent_bound (s : State) (e : Event) : (s.addEvent e).bound = s.bound := rfl
@[simp] theorem State.addEvent_pin (s : State) (e : Event) : (s.addEvent e).pin = s.pin := rfl
@[simp] theorem State.addEvent_cfg (s : State) (e : Event) : (s.addEvent e).cfg = s.cfg := rfl
@[simp] theorem State.addEvent_mode (s : State) (e : Event) : (s.addEvent e).mode = s.mode := rfl
@[simp] theorem State.addEvent_top (s : State) (e : Event) : (s.addEvent e).top = s.top := rfl
@[simp] theorem State.addEvent_phase (s : State) (e : Event) : (s.addEvent e).phase = s.phase := rfl
@[simp] theorem State.addEvent_cmp (s : State) (e : Event) : (s.addEvent e).cmp = s.cmp := rfl
@[simp] theorem State.addEvent_en (s : State) (e : Event) : (s.addEvent e).en = s.en := rfl
@[simp] theorem State.addEvent_dir (s : State) (e : Event) : (s.addEvent e).dir = s.dir := rfl
@[simp] theorem State.addEvent_latch (s : State) (e : Event) : (s.addEvent e).latch = s.latch := rfl
@[simp] theorem State.addEvent_resp (s : State) (e : Event) : (s.addEvent e).resp = s.resp := rfl
@[simp] theorem State.addEvent_errlog (s : State) (e : Event) : (s.addEvent e).errlog = s.errlog := rfl
@[simp] theorem State.addEvent_fault (s : State) (e : Event) : (s.addEvent e).fault = s.fault := rfl
@[simp] theorem State.addEvent_trace (s : State) (e : Event) : (s.addEvent e).trace = s.trace ++ [e] := rfl
@[simp] theorem State.boundAt_addEvent (s : State) (e : Event) (h : Nat) : (s.addEvent e).boundAt h = s.boundAt h := rfl
@[simp] theorem State.pinAt_addEvent (s : State) (e : Event) (h : Nat) : (s.addEvent e).pinAt h = s.pinAt h := rfl
@[simp] theorem State.cfgAt_addEvent (s : State) (e : Event) (h : Nat) : (s.addEvent e).cfgAt h = s.cfgAt h := rfl
@[simp] theorem State.modeAt_addEvent (s : State) (e : Event) (t : Nat) : (s.addEvent e).modeAt t = s.modeAt t := rfl
@[simp] theorem State.topAt_addEvent (s : State) (e : Event) (t : Nat) : (s.addEvent e).topAt t = s.topAt t := rfl
@[simp] theorem State.phaseAt_addEvent (s : State) (e : Event) (t : Nat) : (s.addEvent e).phaseAt t = s.phaseAt t := rfl
@[simp] theorem State.cmpAt_addEvent (s : State) (e : Event) (ch : Chan) : (s.addEvent e).cmpAt ch = s.cmpAt ch := rfl
@[simp] theorem State.enAt_addEvent (s : State) (e : Event) (ch : Chan) : (s.addEvent e).enAt ch = s.enAt ch := rfl
@[simp] theorem State.dirAt_addEvent (s : State) (e : Event) (p : PinId) : (s.addEvent e).dirAt p = s.dirAt p := rfl
@[simp] theorem State.latchAt_addEvent (s : State) (e : Event) (p : PinId) : (s.addEvent e).latchAt p = s.latchAt p := rfl

/-! ### State.setTurns -/

@[simp] theorem State.setTurns_platform (s : State) (ts : List Turn) : (s.setTurns ts).platform = s.platform := rfl
@[simp] theorem State.setTurns_stream (s : State) (ts : List Turn) : (s.setTurns ts).stream = s.stream := rfl
@[simp] theorem State.setTurns_turns (s : State) (ts : List Turn) : (s.setTurns ts).turns = ts := rfl
@[simp] theorem State.setTurns_cpc (s : State) (ts : List Turn) : (s.setTurns ts).cpc = s.cpc := rfl
@[simp] theorem State.setTurns_bound (s : State) (ts : List Turn) : (s.setTurns ts).bound = s.bound := rfl
@[simp] theorem State.setTurns_pin (s : State) (ts : List Turn) : (s.setTurns ts).pin = s.pin := rfl
@[simp] theorem State.setTurns_cfg (s : State) (ts : List Turn) : (s.setTurns ts).cfg = s.cfg := rfl
@[simp] theorem State.setTurns_mode (s : State) (ts : List Turn) : (s.setTurns ts).mode = s.mode := rfl
@[simp] theorem State.setTurns_top (s : State) (ts : List Turn) : (s.setTurns ts).top = s.top := rfl
@[simp] theorem State.setTurns_phase (s : State) (ts : List Turn) : (s.setTurns ts).phase = s.phase := rfl
@[simp] theorem State.setTurns_cmp (s : State) (ts : List Turn) : (s.setTurns ts).cmp = s.cmp := rfl
@[simp] theorem State.setTurns_en (s : State) (ts : List Turn) : (s.setTurns ts).en = s.en := rfl
@[simp] theorem State.setTurns_dir (s : State) (ts : List Turn) : (s.setTurns ts).dir = s.dir := rfl
@[simp] theorem State.setTurns_latch (s : State) (ts : List Turn) : (s.setTurns ts).latch = s.latch := rfl
@[simp] theorem State.setTurns_resp (s : State) (ts : List Turn) : (s.setTurns ts).resp = s.resp := rfl
@[simp] theorem State.setTurns_errlog (s : State) (ts : List Turn) : (s.setTurns ts).errlog = s.errlog := rfl
@[simp] theorem State.setTurns_fault (s : State) (ts : List Turn) : (s.setTurns ts).fault = s.fault := rfl
@[simp] theorem State.setTurns_trace (s : State) (ts : List Turn) : (s.setTurns ts).trace = s.trace := rfl
@[simp] theorem State.boundAt_setTurns (s : State) (ts : List Turn) (h : Nat) : (s.setTurns ts).boundAt h = s.boundAt h := rfl
@[simp] theorem State.pinAt_setTurns (s : State) (ts : List Turn) (h : Nat) : (s.setTurns ts).pinAt h = s.pinAt h := rfl
@[simp] theorem State.cfgAt_setTurns (s : State) (ts : List Turn) (h : Nat) : (s.setTurns ts).cfgAt h = s.cfgAt h := rfl
@[simp] theorem State.modeAt_setTurns (s : State) (ts : List Turn) (t : Nat) : (s.setTurns ts).modeAt t = s.modeAt t := rfl
@[simp] theorem State.topAt_setTurns (s : State) (ts : List Turn) (t : Nat) : (s.setTurns ts).topAt t = s.topAt t := rfl
@[simp] theorem State.phaseAt_setTurns (s : State) (ts : List Turn) (t : Nat) : (s.setTurns ts).phaseAt t = s.phaseAt t := rfl
@[simp] theorem State.cmpAt_setTurns (s : State) (ts : List Turn) (ch : Chan) : (s.setTurns ts).cmpAt ch = s.cmpAt ch := rfl
@[simp] theorem State.enAt_setTurns (s : State) (ts : List Turn) (ch : Chan) : (s.setTurns ts).enAt ch = s.enAt ch := rfl
@[simp] theorem State.dirAt_setTurns (s : State) (ts : List Turn) (p : PinId) : (s.setTurns ts).dirAt p = s.dirAt p := rfl
@[simp] theorem State.latchAt_setTurns (s : State) (ts : List Turn) (p : PinId) : (s.setTurns ts).latchAt p = s.latchAt p := rfl

/-! ### retireWith -/

@[simp] theorem retireWith_platform (e : Status) (v : Byte) (s : State) : (retireWith e v s).platform = s.platform := rfl
@[simp] theorem retireWith_stream (e : Status) (v : Byte) (s : State) : (retireWith e v s).stream = s.stream := rfl
@[simp] theorem retireWith_turns (e : Status) (v : Byte) (s : State) : (retireWith e v s).turns = s.turns := rfl
@[simp] theorem retireWith_cpc (e : Status) (v : Byte) (s : State) : (retireWith e v s).cpc = s.cpc + 1 := rfl
@[simp] theorem retireWith_bound (e : Status) (v : Byte) (s : State) : (retireWith e v s).bound = s.bound := rfl
@[simp] theorem retireWith_pin (e : Status) (v : Byte) (s : State) : (retireWith e v s).pin = s.pin := rfl
@[simp] theorem retireWith_cfg (e : Status) (v : Byte) (s : State) : (retireWith e v s).cfg = s.cfg := rfl
@[simp] theorem retireWith_mode (e : Status) (v : Byte) (s : State) : (retireWith e v s).mode = s.mode := rfl
@[simp] theorem retireWith_top (e : Status) (v : Byte) (s : State) : (retireWith e v s).top = s.top := rfl
@[simp] theorem retireWith_phase (e : Status) (v : Byte) (s : State) : (retireWith e v s).phase = s.phase := rfl
@[simp] theorem retireWith_cmp (e : Status) (v : Byte) (s : State) : (retireWith e v s).cmp = s.cmp := rfl
@[simp] theorem retireWith_en (e : Status) (v : Byte) (s : State) : (retireWith e v s).en = s.en := rfl
@[simp] theorem retireWith_dir (e : Status) (v : Byte) (s : State) : (retireWith e v s).dir = s.dir := rfl
@[simp] theorem retireWith_latch (e : Status) (v : Byte) (s : State) : (retireWith e v s).latch = s.latch := rfl
@[simp] theorem retireWith_resp (e : Status) (v : Byte) (s : State) : (retireWith e v s).resp = respOf e v := rfl
@[simp] theorem retireWith_errlog (e : Status) (v : Byte) (s : State) : (retireWith e v s).errlog = if e = .ok then s.errlog else logWith s.errlog e := rfl
@[simp] theorem retireWith_fault (e : Status) (v : Byte) (s : State) : (retireWith e v s).fault = s.fault := rfl
@[simp] theorem retireWith_trace (e : Status) (v : Byte) (s : State) : (retireWith e v s).trace = s.trace := rfl
@[simp] theorem boundAt_retireWith (e : Status) (v : Byte) (s : State) (h : Nat) : (retireWith e v s).boundAt h = s.boundAt h := rfl
@[simp] theorem pinAt_retireWith (e : Status) (v : Byte) (s : State) (h : Nat) : (retireWith e v s).pinAt h = s.pinAt h := rfl
@[simp] theorem cfgAt_retireWith (e : Status) (v : Byte) (s : State) (h : Nat) : (retireWith e v s).cfgAt h = s.cfgAt h := rfl
@[simp] theorem modeAt_retireWith (e : Status) (v : Byte) (s : State) (t : Nat) : (retireWith e v s).modeAt t = s.modeAt t := rfl
@[simp] theorem topAt_retireWith (e : Status) (v : Byte) (s : State) (t : Nat) : (retireWith e v s).topAt t = s.topAt t := rfl
@[simp] theorem phaseAt_retireWith (e : Status) (v : Byte) (s : State) (t : Nat) : (retireWith e v s).phaseAt t = s.phaseAt t := rfl
@[simp] theorem cmpAt_retireWith (e : Status) (v : Byte) (s : State) (ch : Chan) : (retireWith e v s).cmpAt ch = s.cmpAt ch := rfl
@[simp] theorem enAt_retireWith (e : Status) (v : Byte) (s : State) (ch : Chan) : (retireWith e v s).enAt ch = s.enAt ch := rfl
@[simp] theorem dirAt_retireWith (e : Status) (v : Byte) (s : State) (p : PinId) : (retireWith e v s).dirAt p = s.dirAt p := rfl
@[simp] theorem latchAt_retireWith (e : Status) (v : Byte) (s : State) (p : PinId) : (retireWith e v s).latchAt p = s.latchAt p := rfl

/-! ### raise -/

@[simp] theorem raise_platform (f : FaultReason) (s : State) : (raise f s).platform = s.platform := rfl
@[simp] theorem raise_stream (f : FaultReason) (s : State) : (raise f s).stream = s.stream := rfl
@[simp] theorem raise_turns (f : FaultReason) (s : State) : (raise f s).turns = s.turns := rfl
@[simp] theorem raise_cpc (f : FaultReason) (s : State) : (raise f s).cpc = s.cpc := rfl
@[simp] theorem raise_bound (f : FaultReason) (s : State) : (raise f s).bound = s.bound := rfl
@[simp] theorem raise_pin (f : FaultReason) (s : State) : (raise f s).pin = s.pin := rfl
@[simp] theorem raise_cfg (f : FaultReason) (s : State) : (raise f s).cfg = s.cfg := rfl
@[simp] theorem raise_mode (f : FaultReason) (s : State) : (raise f s).mode = s.mode := rfl
@[simp] theorem raise_top (f : FaultReason) (s : State) : (raise f s).top = s.top := rfl
@[simp] theorem raise_phase (f : FaultReason) (s : State) : (raise f s).phase = s.phase := rfl
@[simp] theorem raise_cmp (f : FaultReason) (s : State) : (raise f s).cmp = s.cmp := rfl
@[simp] theorem raise_en (f : FaultReason) (s : State) : (raise f s).en = s.en := rfl
@[simp] theorem raise_dir (f : FaultReason) (s : State) : (raise f s).dir = s.dir := rfl
@[simp] theorem raise_latch (f : FaultReason) (s : State) : (raise f s).latch = s.latch := rfl
@[simp] theorem raise_resp (f : FaultReason) (s : State) : (raise f s).resp = s.resp := rfl
@[simp] theorem raise_errlog (f : FaultReason) (s : State) : (raise f s).errlog = s.errlog := rfl
@[simp] theorem raise_fault (f : FaultReason) (s : State) : (raise f s).fault = some ⟨f, s.cpc⟩ := rfl
@[simp] theorem raise_trace (f : FaultReason) (s : State) : (raise f s).trace = s.trace := rfl
@[simp] theorem boundAt_raise (f : FaultReason) (s : State) (h : Nat) : (raise f s).boundAt h = s.boundAt h := rfl
@[simp] theorem pinAt_raise (f : FaultReason) (s : State) (h : Nat) : (raise f s).pinAt h = s.pinAt h := rfl
@[simp] theorem cfgAt_raise (f : FaultReason) (s : State) (h : Nat) : (raise f s).cfgAt h = s.cfgAt h := rfl
@[simp] theorem modeAt_raise (f : FaultReason) (s : State) (t : Nat) : (raise f s).modeAt t = s.modeAt t := rfl
@[simp] theorem topAt_raise (f : FaultReason) (s : State) (t : Nat) : (raise f s).topAt t = s.topAt t := rfl
@[simp] theorem phaseAt_raise (f : FaultReason) (s : State) (t : Nat) : (raise f s).phaseAt t = s.phaseAt t := rfl
@[simp] theorem cmpAt_raise (f : FaultReason) (s : State) (ch : Chan) : (raise f s).cmpAt ch = s.cmpAt ch := rfl
@[simp] theorem enAt_raise (f : FaultReason) (s : State) (ch : Chan) : (raise f s).enAt ch = s.enAt ch := rfl
@[simp] theorem dirAt_raise (f : FaultReason) (s : State) (p : PinId) : (raise f s).dirAt p = s.dirAt p := rfl
@[simp] theorem latchAt_raise (f : FaultReason) (s : State) (p : PinId) : (raise f s).latchAt p = s.latchAt p := rfl

/-! ### State.resetOn -/

@[simp] theorem State.resetOn_platform (P : Platform) (ws : List Word) (ts : List Turn) : (State.resetOn P ws ts).platform = P := rfl
@[simp] theorem State.resetOn_stream (P : Platform) (ws : List Word) (ts : List Turn) : (State.resetOn P ws ts).stream = ws := rfl
@[simp] theorem State.resetOn_turns (P : Platform) (ws : List Word) (ts : List Turn) : (State.resetOn P ws ts).turns = ts := rfl
@[simp] theorem State.resetOn_cpc (P : Platform) (ws : List Word) (ts : List Turn) : (State.resetOn P ws ts).cpc = 0 := rfl
@[simp] theorem State.resetOn_bound (P : Platform) (ws : List Word) (ts : List Turn) : (State.resetOn P ws ts).bound = [] := rfl
@[simp] theorem State.resetOn_pin (P : Platform) (ws : List Word) (ts : List Turn) : (State.resetOn P ws ts).pin = [] := rfl
@[simp] theorem State.resetOn_cfg (P : Platform) (ws : List Word) (ts : List Turn) : (State.resetOn P ws ts).cfg = [] := rfl
@[simp] theorem State.resetOn_mode (P : Platform) (ws : List Word) (ts : List Turn) : (State.resetOn P ws ts).mode = [] := rfl
@[simp] theorem State.resetOn_top (P : Platform) (ws : List Word) (ts : List Turn) : (State.resetOn P ws ts).top = [] := rfl
@[simp] theorem State.resetOn_phase (P : Platform) (ws : List Word) (ts : List Turn) : (State.resetOn P ws ts).phase = [] := rfl
@[simp] theorem State.resetOn_cmp (P : Platform) (ws : List Word) (ts : List Turn) : (State.resetOn P ws ts).cmp = [] := rfl
@[simp] theorem State.resetOn_en (P : Platform) (ws : List Word) (ts : List Turn) : (State.resetOn P ws ts).en = [] := rfl
@[simp] theorem State.resetOn_dir (P : Platform) (ws : List Word) (ts : List Turn) : (State.resetOn P ws ts).dir = [] := rfl
@[simp] theorem State.resetOn_latch (P : Platform) (ws : List Word) (ts : List Turn) : (State.resetOn P ws ts).latch = [] := rfl
@[simp] theorem State.resetOn_resp (P : Platform) (ws : List Word) (ts : List Turn) : (State.resetOn P ws ts).resp = ⟨0, 0⟩ := rfl
@[simp] theorem State.resetOn_errlog (P : Platform) (ws : List Word) (ts : List Turn) : (State.resetOn P ws ts).errlog = [] := rfl
@[simp] theorem State.resetOn_fault (P : Platform) (ws : List Word) (ts : List Turn) : (State.resetOn P ws ts).fault = none := rfl
@[simp] theorem State.resetOn_trace (P : Platform) (ws : List Word) (ts : List Turn) : (State.resetOn P ws ts).trace = [] := rfl
@[simp] theorem State.boundAt_resetOn (P : Platform) (ws : List Word) (ts : List Turn) (h : Nat) : (State.resetOn P ws ts).boundAt h = false := rfl
@[simp] theorem State.pinAt_resetOn (P : Platform) (ws : List Word) (ts : List Turn) (h : Nat) : (State.resetOn P ws ts).pinAt h = none := rfl
@[simp] theorem State.cfgAt_resetOn (P : Platform) (ws : List Word) (ts : List Turn) (h : Nat) : (State.resetOn P ws ts).cfgAt h = false := rfl
@[simp] theorem State.modeAt_resetOn (P : Platform) (ws : List Word) (ts : List Turn) (t : Nat) : (State.resetOn P ws ts).modeAt t = Mode.stopped := rfl
@[simp] theorem State.topAt_resetOn (P : Platform) (ws : List Word) (ts : List Turn) (t : Nat) : (State.resetOn P ws ts).topAt t = none := rfl
@[simp] theorem State.phaseAt_resetOn (P : Platform) (ws : List Word) (ts : List Turn) (t : Nat) : (State.resetOn P ws ts).phaseAt t = 0 := rfl
@[simp] theorem State.cmpAt_resetOn (P : Platform) (ws : List Word) (ts : List Turn) (ch : Chan) : (State.resetOn P ws ts).cmpAt ch = none := rfl
@[simp] theorem State.enAt_resetOn (P : Platform) (ws : List Word) (ts : List Turn) (ch : Chan) : (State.resetOn P ws ts).enAt ch = false := rfl
@[simp] theorem State.dirAt_resetOn (P : Platform) (ws : List Word) (ts : List Turn) (p : PinId) : (State.resetOn P ws ts).dirAt p = Dir.inp := rfl
@[simp] theorem State.latchAt_resetOn (P : Platform) (ws : List Word) (ts : List Turn) (p : PinId) : (State.resetOn P ws ts).latchAt p = false := rfl

@[simp] theorem retire_eq (v : Byte) (s : State) : retire v s = retireWith .ok v s := rfl
@[simp] theorem report_eq (e : Status) (s : State) : report e s = retireWith e 0 s := rfl

end Sys2Proof.Machine
end

