-- ==== Sys2Proof/Laws/Ops.lean ====
section
/-! SUPPORT. What each shared operation does to each field and to each register's reader, so that no later proof unfolds it. -/

namespace Sys2Proof.Machine

/-! ### Handles -/

@[simp] theorem mem_handleIds (P : Platform) (h : Nat) : h ∈ handleIds P ↔ h < P.numHandles := List.mem_range

theorem pinsWritten_iff (s : State) :
    s.pinsWritten = true ↔ ∀ h < s.platform.numHandles, s.boundAt h = true → ∃ p, s.pinAt h = some p := by
  simp only [State.pinsWritten, List.all_eq_true, mem_handleIds]
  refine forall₂_congr fun h _ => ?_
  cases s.boundAt h <;> simp [Option.isSome_iff_exists]

theorem pinInUse_iff (s : State) (p : PinId) :
    s.pinInUse p = true ↔ ∃ h < s.platform.numHandles, s.boundAt h = true ∧ s.pinAt h = some p := by
  simp [State.pinInUse]

theorem onTimer_iff (s : State) (t h : Nat) :
    s.onTimer t h = true ↔
      s.boundAt h = true ∧ ∃ p ch, s.pinAt h = some p ∧ chanOf s.platform p = some ch ∧ ch.timer = t := by
  unfold State.onTimer
  cases s.boundAt h
  · simp
  · cases s.pinAt h with
    | none => simp
    | some p => cases hc : chanOf s.platform p <;> simp [hc]

/-! ### clearCfgs -/

theorem regGet_clearCfgs (l : List Nat) (m : RegMap Nat Bool) (h : Nat) :
    regGet false (clearCfgs l m) h = if h ∈ l then false else regGet false m h := by
  induction l generalizing m with
  | nil => simp [clearCfgs]
  | cons x l ih =>
    rw [clearCfgs, ih, regGet_regSet]
    by_cases hl : h ∈ l
    · simp [hl]
    · by_cases hx : x = h
      · simp [hx]
      · have : ¬h = x := fun e => hx e.symm
        simp [hl, hx, this]

theorem clearCfgs_wf (l : List Nat) {m : RegMap Nat Bool} (hm : regWf natLt false m) :
    regWf natLt false (clearCfgs l m) := by
  induction l generalizing m with
  | nil => exact hm
  | cons x l ih => exact ih (regSet_wf natLt_order hm x false)

/-! ### invalidateCotenants -/

@[simp] theorem invalidateCotenants_platform (h t : Nat) (s : State) : (invalidateCotenants h t s).platform = s.platform := rfl
@[simp] theorem invalidateCotenants_stream (h t : Nat) (s : State) : (invalidateCotenants h t s).stream = s.stream := rfl
@[simp] theorem invalidateCotenants_turns (h t : Nat) (s : State) : (invalidateCotenants h t s).turns = s.turns := rfl
@[simp] theorem invalidateCotenants_cpc (h t : Nat) (s : State) : (invalidateCotenants h t s).cpc = s.cpc := rfl
@[simp] theorem invalidateCotenants_bound (h t : Nat) (s : State) : (invalidateCotenants h t s).bound = s.bound := rfl
@[simp] theorem invalidateCotenants_pin (h t : Nat) (s : State) : (invalidateCotenants h t s).pin = s.pin := rfl
@[simp] theorem invalidateCotenants_cfg (h t : Nat) (s : State) : (invalidateCotenants h t s).cfg = clearCfgs ((handleIds s.platform).filter fun h' => decide (h' ≠ h) && s.onTimer t h') s.cfg := rfl
@[simp] theorem invalidateCotenants_mode (h t : Nat) (s : State) : (invalidateCotenants h t s).mode = s.mode := rfl
@[simp] theorem invalidateCotenants_top (h t : Nat) (s : State) : (invalidateCotenants h t s).top = s.top := rfl
@[simp] theorem invalidateCotenants_phase (h t : Nat) (s : State) : (invalidateCotenants h t s).phase = s.phase := rfl
@[simp] theorem invalidateCotenants_cmp (h t : Nat) (s : State) : (invalidateCotenants h t s).cmp = s.cmp := rfl
@[simp] theorem invalidateCotenants_en (h t : Nat) (s : State) : (invalidateCotenants h t s).en = s.en := rfl
@[simp] theorem invalidateCotenants_dir (h t : Nat) (s : State) : (invalidateCotenants h t s).dir = s.dir := rfl
@[simp] theorem invalidateCotenants_latch (h t : Nat) (s : State) : (invalidateCotenants h t s).latch = s.latch := rfl
@[simp] theorem invalidateCotenants_resp (h t : Nat) (s : State) : (invalidateCotenants h t s).resp = s.resp := rfl
@[simp] theorem invalidateCotenants_errlog (h t : Nat) (s : State) : (invalidateCotenants h t s).errlog = s.errlog := rfl
@[simp] theorem invalidateCotenants_fault (h t : Nat) (s : State) : (invalidateCotenants h t s).fault = s.fault := rfl
@[simp] theorem invalidateCotenants_trace (h t : Nat) (s : State) : (invalidateCotenants h t s).trace = s.trace := rfl
@[simp] theorem boundAt_invalidateCotenants (h t : Nat) (s : State) (h' : Nat) : (invalidateCotenants h t s).boundAt h' = s.boundAt h' := rfl
@[simp] theorem pinAt_invalidateCotenants (h t : Nat) (s : State) (h' : Nat) : (invalidateCotenants h t s).pinAt h' = s.pinAt h' := rfl
@[simp] theorem cfgAt_invalidateCotenants (h t : Nat) (s : State) (h' : Nat) :
    (invalidateCotenants h t s).cfgAt h' = if h' < s.platform.numHandles ∧ h' ≠ h ∧ s.onTimer t h' = true then false else s.cfgAt h' := by
  simp only [State.cfgAt, invalidateCotenants, regGet_clearCfgs]
  refine if_congr ?_ rfl rfl
  simp
@[simp] theorem modeAt_invalidateCotenants (h t : Nat) (s : State) (t' : Nat) : (invalidateCotenants h t s).modeAt t' = s.modeAt t' := rfl
@[simp] theorem topAt_invalidateCotenants (h t : Nat) (s : State) (t' : Nat) : (invalidateCotenants h t s).topAt t' = s.topAt t' := rfl
@[simp] theorem phaseAt_invalidateCotenants (h t : Nat) (s : State) (t' : Nat) : (invalidateCotenants h t s).phaseAt t' = s.phaseAt t' := rfl
@[simp] theorem cmpAt_invalidateCotenants (h t : Nat) (s : State) (ch' : Chan) : (invalidateCotenants h t s).cmpAt ch' = s.cmpAt ch' := rfl
@[simp] theorem enAt_invalidateCotenants (h t : Nat) (s : State) (ch' : Chan) : (invalidateCotenants h t s).enAt ch' = s.enAt ch' := rfl
@[simp] theorem dirAt_invalidateCotenants (h t : Nat) (s : State) (p' : PinId) : (invalidateCotenants h t s).dirAt p' = s.dirAt p' := rfl
@[simp] theorem latchAt_invalidateCotenants (h t : Nat) (s : State) (p' : PinId) : (invalidateCotenants h t s).latchAt p' = s.latchAt p' := rfl

/-! ### gate -/

@[simp] theorem gate_platform (h : Nat) (p : PinId) (ch : Chan) (kind : WaitKind) (d : Nat) (s : State) : (gate h p ch kind d s).platform = s.platform := rfl
@[simp] theorem gate_stream (h : Nat) (p : PinId) (ch : Chan) (kind : WaitKind) (d : Nat) (s : State) : (gate h p ch kind d s).stream = s.stream := rfl
@[simp] theorem gate_turns (h : Nat) (p : PinId) (ch : Chan) (kind : WaitKind) (d : Nat) (s : State) : (gate h p ch kind d s).turns = s.turns := rfl
@[simp] theorem gate_cpc (h : Nat) (p : PinId) (ch : Chan) (kind : WaitKind) (d : Nat) (s : State) : (gate h p ch kind d s).cpc = s.cpc := rfl
@[simp] theorem gate_bound (h : Nat) (p : PinId) (ch : Chan) (kind : WaitKind) (d : Nat) (s : State) : (gate h p ch kind d s).bound = s.bound := rfl
@[simp] theorem gate_pin (h : Nat) (p : PinId) (ch : Chan) (kind : WaitKind) (d : Nat) (s : State) : (gate h p ch kind d s).pin = s.pin := rfl
@[simp] theorem gate_cfg (h : Nat) (p : PinId) (ch : Chan) (kind : WaitKind) (d : Nat) (s : State) : (gate h p ch kind d s).cfg = s.cfg := rfl
@[simp] theorem gate_mode (h : Nat) (p : PinId) (ch : Chan) (kind : WaitKind) (d : Nat) (s : State) : (gate h p ch kind d s).mode = s.mode := rfl
@[simp] theorem gate_top (h : Nat) (p : PinId) (ch : Chan) (kind : WaitKind) (d : Nat) (s : State) : (gate h p ch kind d s).top = s.top := rfl
@[simp] theorem gate_phase (h : Nat) (p : PinId) (ch : Chan) (kind : WaitKind) (d : Nat) (s : State) : (gate h p ch kind d s).phase = s.phase := rfl
@[simp] theorem gate_cmp (h : Nat) (p : PinId) (ch : Chan) (kind : WaitKind) (d : Nat) (s : State) : (gate h p ch kind d s).cmp = s.cmp := rfl
@[simp] theorem gate_en (h : Nat) (p : PinId) (ch : Chan) (kind : WaitKind) (d : Nat) (s : State) : (gate h p ch kind d s).en = regSet chanLt false s.en ch (kind == .mark) := rfl
@[simp] theorem gate_dir (h : Nat) (p : PinId) (ch : Chan) (kind : WaitKind) (d : Nat) (s : State) : (gate h p ch kind d s).dir = s.dir := rfl
@[simp] theorem gate_latch (h : Nat) (p : PinId) (ch : Chan) (kind : WaitKind) (d : Nat) (s : State) : (gate h p ch kind d s).latch = s.latch := rfl
@[simp] theorem gate_resp (h : Nat) (p : PinId) (ch : Chan) (kind : WaitKind) (d : Nat) (s : State) : (gate h p ch kind d s).resp = s.resp := rfl
@[simp] theorem gate_errlog (h : Nat) (p : PinId) (ch : Chan) (kind : WaitKind) (d : Nat) (s : State) : (gate h p ch kind d s).errlog = s.errlog := rfl
@[simp] theorem gate_fault (h : Nat) (p : PinId) (ch : Chan) (kind : WaitKind) (d : Nat) (s : State) : (gate h p ch kind d s).fault = s.fault := rfl
@[simp] theorem gate_trace (h : Nat) (p : PinId) (ch : Chan) (kind : WaitKind) (d : Nat) (s : State) : (gate h p ch kind d s).trace = s.trace ++ [waitEvent s.cpc h p kind d] := rfl
@[simp] theorem boundAt_gate (h : Nat) (p : PinId) (ch : Chan) (kind : WaitKind) (d : Nat) (s : State) (h' : Nat) : (gate h p ch kind d s).boundAt h' = s.boundAt h' := rfl
@[simp] theorem pinAt_gate (h : Nat) (p : PinId) (ch : Chan) (kind : WaitKind) (d : Nat) (s : State) (h' : Nat) : (gate h p ch kind d s).pinAt h' = s.pinAt h' := rfl
@[simp] theorem cfgAt_gate (h : Nat) (p : PinId) (ch : Chan) (kind : WaitKind) (d : Nat) (s : State) (h' : Nat) : (gate h p ch kind d s).cfgAt h' = s.cfgAt h' := rfl
@[simp] theorem modeAt_gate (h : Nat) (p : PinId) (ch : Chan) (kind : WaitKind) (d : Nat) (s : State) (t' : Nat) : (gate h p ch kind d s).modeAt t' = s.modeAt t' := rfl
@[simp] theorem topAt_gate (h : Nat) (p : PinId) (ch : Chan) (kind : WaitKind) (d : Nat) (s : State) (t' : Nat) : (gate h p ch kind d s).topAt t' = s.topAt t' := rfl
@[simp] theorem phaseAt_gate (h : Nat) (p : PinId) (ch : Chan) (kind : WaitKind) (d : Nat) (s : State) (t' : Nat) : (gate h p ch kind d s).phaseAt t' = s.phaseAt t' := rfl
@[simp] theorem cmpAt_gate (h : Nat) (p : PinId) (ch : Chan) (kind : WaitKind) (d : Nat) (s : State) (ch' : Chan) : (gate h p ch kind d s).cmpAt ch' = s.cmpAt ch' := rfl
@[simp] theorem enAt_gate (h : Nat) (p : PinId) (ch : Chan) (kind : WaitKind) (d : Nat) (s : State) (ch' : Chan) :
    (gate h p ch kind d s).enAt ch' = if ch = ch' then kind == .mark else s.enAt ch' := regGet_regSet chanLt false s.en ch ch' (kind == .mark)
@[simp] theorem dirAt_gate (h : Nat) (p : PinId) (ch : Chan) (kind : WaitKind) (d : Nat) (s : State) (p' : PinId) : (gate h p ch kind d s).dirAt p' = s.dirAt p' := rfl
@[simp] theorem latchAt_gate (h : Nat) (p : PinId) (ch : Chan) (kind : WaitKind) (d : Nat) (s : State) (p' : PinId) : (gate h p ch kind d s).latchAt p' = s.latchAt p' := rfl

/-- The enable bit that a list of gates leaves, from the bit before it. -/
def lastBit (b : Bool) : List (WaitKind × Nat) → Bool
  | [] => b
  | g :: gs => lastBit (g.1 == .mark) gs

/-! ### gates -/

@[simp] theorem gates_platform (h : Nat) (p : PinId) (ch : Chan) (gs : List (WaitKind × Nat)) (s : State) : (gates h p ch gs s).platform = s.platform := by
  induction gs generalizing s with
  | nil => simp [gates]
  | cons g gs ih => simp [gates, ih]
@[simp] theorem gates_stream (h : Nat) (p : PinId) (ch : Chan) (gs : List (WaitKind × Nat)) (s : State) : (gates h p ch gs s).stream = s.stream := by
  induction gs generalizing s with
  | nil => simp [gates]
  | cons g gs ih => simp [gates, ih]
@[simp] theorem gates_turns (h : Nat) (p : PinId) (ch : Chan) (gs : List (WaitKind × Nat)) (s : State) : (gates h p ch gs s).turns = s.turns := by
  induction gs generalizing s with
  | nil => simp [gates]
  | cons g gs ih => simp [gates, ih]
@[simp] theorem gates_cpc (h : Nat) (p : PinId) (ch : Chan) (gs : List (WaitKind × Nat)) (s : State) : (gates h p ch gs s).cpc = s.cpc := by
  induction gs generalizing s with
  | nil => simp [gates]
  | cons g gs ih => simp [gates, ih]
@[simp] theorem gates_bound (h : Nat) (p : PinId) (ch : Chan) (gs : List (WaitKind × Nat)) (s : State) : (gates h p ch gs s).bound = s.bound := by
  induction gs generalizing s with
  | nil => simp [gates]
  | cons g gs ih => simp [gates, ih]
@[simp] theorem gates_pin (h : Nat) (p : PinId) (ch : Chan) (gs : List (WaitKind × Nat)) (s : State) : (gates h p ch gs s).pin = s.pin := by
  induction gs generalizing s with
  | nil => simp [gates]
  | cons g gs ih => simp [gates, ih]
@[simp] theorem gates_cfg (h : Nat) (p : PinId) (ch : Chan) (gs : List (WaitKind × Nat)) (s : State) : (gates h p ch gs s).cfg = s.cfg := by
  induction gs generalizing s with
  | nil => simp [gates]
  | cons g gs ih => simp [gates, ih]
@[simp] theorem gates_mode (h : Nat) (p : PinId) (ch : Chan) (gs : List (WaitKind × Nat)) (s : State) : (gates h p ch gs s).mode = s.mode := by
  induction gs generalizing s with
  | nil => simp [gates]
  | cons g gs ih => simp [gates, ih]
@[simp] theorem gates_top (h : Nat) (p : PinId) (ch : Chan) (gs : List (WaitKind × Nat)) (s : State) : (gates h p ch gs s).top = s.top := by
  induction gs generalizing s with
  | nil => simp [gates]
  | cons g gs ih => simp [gates, ih]
@[simp] theorem gates_phase (h : Nat) (p : PinId) (ch : Chan) (gs : List (WaitKind × Nat)) (s : State) : (gates h p ch gs s).phase = s.phase := by
  induction gs generalizing s with
  | nil => simp [gates]
  | cons g gs ih => simp [gates, ih]
@[simp] theorem gates_cmp (h : Nat) (p : PinId) (ch : Chan) (gs : List (WaitKind × Nat)) (s : State) : (gates h p ch gs s).cmp = s.cmp := by
  induction gs generalizing s with
  | nil => simp [gates]
  | cons g gs ih => simp [gates, ih]
@[simp] theorem gates_dir (h : Nat) (p : PinId) (ch : Chan) (gs : List (WaitKind × Nat)) (s : State) : (gates h p ch gs s).dir = s.dir := by
  induction gs generalizing s with
  | nil => simp [gates]
  | cons g gs ih => simp [gates, ih]
@[simp] theorem gates_latch (h : Nat) (p : PinId) (ch : Chan) (gs : List (WaitKind × Nat)) (s : State) : (gates h p ch gs s).latch = s.latch := by
  induction gs generalizing s with
  | nil => simp [gates]
  | cons g gs ih => simp [gates, ih]
@[simp] theorem gates_resp (h : Nat) (p : PinId) (ch : Chan) (gs : List (WaitKind × Nat)) (s : State) : (gates h p ch gs s).resp = s.resp := by
  induction gs generalizing s with
  | nil => simp [gates]
  | cons g gs ih => simp [gates, ih]
@[simp] theorem gates_errlog (h : Nat) (p : PinId) (ch : Chan) (gs : List (WaitKind × Nat)) (s : State) : (gates h p ch gs s).errlog = s.errlog := by
  induction gs generalizing s with
  | nil => simp [gates]
  | cons g gs ih => simp [gates, ih]
@[simp] theorem gates_fault (h : Nat) (p : PinId) (ch : Chan) (gs : List (WaitKind × Nat)) (s : State) : (gates h p ch gs s).fault = s.fault := by
  induction gs generalizing s with
  | nil => simp [gates]
  | cons g gs ih => simp [gates, ih]
@[simp] theorem gates_trace (h : Nat) (p : PinId) (ch : Chan) (gs : List (WaitKind × Nat)) (s : State) : (gates h p ch gs s).trace = s.trace ++ gs.map fun g => waitEvent s.cpc h p g.1 g.2 := by
  induction gs generalizing s with
  | nil => simp [gates]
  | cons g gs ih => simp [gates, ih]
@[simp] theorem boundAt_gates (h : Nat) (p : PinId) (ch : Chan) (gs : List (WaitKind × Nat)) (s : State) (h' : Nat) : (gates h p ch gs s).boundAt h' = s.boundAt h' := by simp [State.boundAt]
@[simp] theorem pinAt_gates (h : Nat) (p : PinId) (ch : Chan) (gs : List (WaitKind × Nat)) (s : State) (h' : Nat) : (gates h p ch gs s).pinAt h' = s.pinAt h' := by simp [State.pinAt]
@[simp] theorem cfgAt_gates (h : Nat) (p : PinId) (ch : Chan) (gs : List (WaitKind × Nat)) (s : State) (h' : Nat) : (gates h p ch gs s).cfgAt h' = s.cfgAt h' := by simp [State.cfgAt]
@[simp] theorem modeAt_gates (h : Nat) (p : PinId) (ch : Chan) (gs : List (WaitKind × Nat)) (s : State) (t' : Nat) : (gates h p ch gs s).modeAt t' = s.modeAt t' := by simp [State.modeAt]
@[simp] theorem topAt_gates (h : Nat) (p : PinId) (ch : Chan) (gs : List (WaitKind × Nat)) (s : State) (t' : Nat) : (gates h p ch gs s).topAt t' = s.topAt t' := by simp [State.topAt]
@[simp] theorem phaseAt_gates (h : Nat) (p : PinId) (ch : Chan) (gs : List (WaitKind × Nat)) (s : State) (t' : Nat) : (gates h p ch gs s).phaseAt t' = s.phaseAt t' := by simp [State.phaseAt]
@[simp] theorem cmpAt_gates (h : Nat) (p : PinId) (ch : Chan) (gs : List (WaitKind × Nat)) (s : State) (ch' : Chan) : (gates h p ch gs s).cmpAt ch' = s.cmpAt ch' := by simp [State.cmpAt]
@[simp] theorem enAt_gates (h : Nat) (p : PinId) (ch : Chan) (gs : List (WaitKind × Nat)) (s : State) (ch' : Chan) :
    (gates h p ch gs s).enAt ch' = if ch = ch' then lastBit (s.enAt ch) gs else s.enAt ch' := by
  induction gs generalizing s with
  | nil => by_cases e : ch = ch' <;> simp [gates, lastBit, e]
  | cons g gs ih =>
    rw [gates, ih]
    by_cases e : ch = ch' <;> simp [lastBit, e]
@[simp] theorem dirAt_gates (h : Nat) (p : PinId) (ch : Chan) (gs : List (WaitKind × Nat)) (s : State) (p' : PinId) : (gates h p ch gs s).dirAt p' = s.dirAt p' := by simp [State.dirAt]
@[simp] theorem latchAt_gates (h : Nat) (p : PinId) (ch : Chan) (gs : List (WaitKind × Nat)) (s : State) (p' : PinId) : (gates h p ch gs s).latchAt p' = s.latchAt p' := by simp [State.latchAt]

/-! ### commitBind -/

@[simp] theorem commitBind_platform (h : Nat) (p : PinId) (s : State) : (commitBind h p s).platform = s.platform := rfl
@[simp] theorem commitBind_stream (h : Nat) (p : PinId) (s : State) : (commitBind h p s).stream = s.stream := rfl
@[simp] theorem commitBind_turns (h : Nat) (p : PinId) (s : State) : (commitBind h p s).turns = s.turns := rfl
@[simp] theorem commitBind_cpc (h : Nat) (p : PinId) (s : State) : (commitBind h p s).cpc = s.cpc := rfl
@[simp] theorem commitBind_bound (h : Nat) (p : PinId) (s : State) : (commitBind h p s).bound = regSet natLt false s.bound h true := rfl
@[simp] theorem commitBind_pin (h : Nat) (p : PinId) (s : State) : (commitBind h p s).pin = regSet natLt none s.pin h (some p) := rfl
@[simp] theorem commitBind_cfg (h : Nat) (p : PinId) (s : State) : (commitBind h p s).cfg = regSet natLt false s.cfg h false := rfl
@[simp] theorem commitBind_mode (h : Nat) (p : PinId) (s : State) : (commitBind h p s).mode = s.mode := rfl
@[simp] theorem commitBind_top (h : Nat) (p : PinId) (s : State) : (commitBind h p s).top = s.top := rfl
@[simp] theorem commitBind_phase (h : Nat) (p : PinId) (s : State) : (commitBind h p s).phase = s.phase := rfl
@[simp] theorem commitBind_cmp (h : Nat) (p : PinId) (s : State) : (commitBind h p s).cmp = s.cmp := rfl
@[simp] theorem commitBind_en (h : Nat) (p : PinId) (s : State) : (commitBind h p s).en = s.en := rfl
@[simp] theorem commitBind_dir (h : Nat) (p : PinId) (s : State) : (commitBind h p s).dir = s.dir := rfl
@[simp] theorem commitBind_latch (h : Nat) (p : PinId) (s : State) : (commitBind h p s).latch = s.latch := rfl
@[simp] theorem commitBind_resp (h : Nat) (p : PinId) (s : State) : (commitBind h p s).resp = s.resp := rfl
@[simp] theorem commitBind_errlog (h : Nat) (p : PinId) (s : State) : (commitBind h p s).errlog = s.errlog := rfl
@[simp] theorem commitBind_fault (h : Nat) (p : PinId) (s : State) : (commitBind h p s).fault = s.fault := rfl
@[simp] theorem commitBind_trace (h : Nat) (p : PinId) (s : State) : (commitBind h p s).trace = s.trace := rfl
@[simp] theorem boundAt_commitBind (h : Nat) (p : PinId) (s : State) (h' : Nat) :
    (commitBind h p s).boundAt h' = if h = h' then true else s.boundAt h' := by simp [commitBind]
@[simp] theorem pinAt_commitBind (h : Nat) (p : PinId) (s : State) (h' : Nat) :
    (commitBind h p s).pinAt h' = if h = h' then some p else s.pinAt h' := by simp [commitBind]
@[simp] theorem cfgAt_commitBind (h : Nat) (p : PinId) (s : State) (h' : Nat) :
    (commitBind h p s).cfgAt h' = if h = h' then false else s.cfgAt h' := by simp [commitBind]
@[simp] theorem modeAt_commitBind (h : Nat) (p : PinId) (s : State) (t' : Nat) : (commitBind h p s).modeAt t' = s.modeAt t' := rfl
@[simp] theorem topAt_commitBind (h : Nat) (p : PinId) (s : State) (t' : Nat) : (commitBind h p s).topAt t' = s.topAt t' := rfl
@[simp] theorem phaseAt_commitBind (h : Nat) (p : PinId) (s : State) (t' : Nat) : (commitBind h p s).phaseAt t' = s.phaseAt t' := rfl
@[simp] theorem cmpAt_commitBind (h : Nat) (p : PinId) (s : State) (ch' : Chan) : (commitBind h p s).cmpAt ch' = s.cmpAt ch' := rfl
@[simp] theorem enAt_commitBind (h : Nat) (p : PinId) (s : State) (ch' : Chan) : (commitBind h p s).enAt ch' = s.enAt ch' := rfl
@[simp] theorem dirAt_commitBind (h : Nat) (p : PinId) (s : State) (p' : PinId) : (commitBind h p s).dirAt p' = s.dirAt p' := rfl
@[simp] theorem latchAt_commitBind (h : Nat) (p : PinId) (s : State) (p' : PinId) : (commitBind h p s).latchAt p' = s.latchAt p' := rfl

/-! ### configureRegs -/

@[simp] theorem configureRegs_platform (p : PinId) (ch : Chan) (f : Nat) (s : State) : (configureRegs p ch f s).platform = s.platform := by simp [configureRegs]
@[simp] theorem configureRegs_stream (p : PinId) (ch : Chan) (f : Nat) (s : State) : (configureRegs p ch f s).stream = s.stream := by simp [configureRegs]
@[simp] theorem configureRegs_turns (p : PinId) (ch : Chan) (f : Nat) (s : State) : (configureRegs p ch f s).turns = s.turns := by simp [configureRegs]
@[simp] theorem configureRegs_cpc (p : PinId) (ch : Chan) (f : Nat) (s : State) : (configureRegs p ch f s).cpc = s.cpc := by simp [configureRegs]
@[simp] theorem configureRegs_bound (p : PinId) (ch : Chan) (f : Nat) (s : State) : (configureRegs p ch f s).bound = s.bound := by simp [configureRegs]
@[simp] theorem configureRegs_pin (p : PinId) (ch : Chan) (f : Nat) (s : State) : (configureRegs p ch f s).pin = s.pin := by simp [configureRegs]
@[simp] theorem configureRegs_cfg (p : PinId) (ch : Chan) (f : Nat) (s : State) : (configureRegs p ch f s).cfg = s.cfg := by simp [configureRegs]
@[simp] theorem configureRegs_mode (p : PinId) (ch : Chan) (f : Nat) (s : State) : (configureRegs p ch f s).mode = regSet natLt .stopped s.mode ch.timer .carrier := by simp [configureRegs]
@[simp] theorem configureRegs_top (p : PinId) (ch : Chan) (f : Nat) (s : State) : (configureRegs p ch f s).top = regSet natLt none s.top ch.timer (some (divide s.platform f)) := by simp [configureRegs]
@[simp] theorem configureRegs_phase (p : PinId) (ch : Chan) (f : Nat) (s : State) : (configureRegs p ch f s).phase = regSet natLt 0 s.phase ch.timer 0 := by simp [configureRegs]
@[simp] theorem configureRegs_cmp (p : PinId) (ch : Chan) (f : Nat) (s : State) : (configureRegs p ch f s).cmp = regSet chanLt none s.cmp ch (some (compareOf (divide s.platform f))) := by simp [configureRegs]
@[simp] theorem configureRegs_en (p : PinId) (ch : Chan) (f : Nat) (s : State) : (configureRegs p ch f s).en = regSet chanLt false s.en ch false := by simp [configureRegs]
@[simp] theorem configureRegs_dir (p : PinId) (ch : Chan) (f : Nat) (s : State) : (configureRegs p ch f s).dir = regSet pinLt .inp s.dir p .out := by simp [configureRegs]
@[simp] theorem configureRegs_latch (p : PinId) (ch : Chan) (f : Nat) (s : State) : (configureRegs p ch f s).latch = regSet pinLt false s.latch p false := by simp [configureRegs]
@[simp] theorem configureRegs_resp (p : PinId) (ch : Chan) (f : Nat) (s : State) : (configureRegs p ch f s).resp = s.resp := by simp [configureRegs]
@[simp] theorem configureRegs_errlog (p : PinId) (ch : Chan) (f : Nat) (s : State) : (configureRegs p ch f s).errlog = s.errlog := by simp [configureRegs]
@[simp] theorem configureRegs_fault (p : PinId) (ch : Chan) (f : Nat) (s : State) : (configureRegs p ch f s).fault = s.fault := by simp [configureRegs]
@[simp] theorem configureRegs_trace (p : PinId) (ch : Chan) (f : Nat) (s : State) : (configureRegs p ch f s).trace = s.trace := by simp [configureRegs]
@[simp] theorem boundAt_configureRegs (p : PinId) (ch : Chan) (f : Nat) (s : State) (h' : Nat) : (configureRegs p ch f s).boundAt h' = s.boundAt h' := by simp [configureRegs]
@[simp] theorem pinAt_configureRegs (p : PinId) (ch : Chan) (f : Nat) (s : State) (h' : Nat) : (configureRegs p ch f s).pinAt h' = s.pinAt h' := by simp [configureRegs]
@[simp] theorem cfgAt_configureRegs (p : PinId) (ch : Chan) (f : Nat) (s : State) (h' : Nat) : (configureRegs p ch f s).cfgAt h' = s.cfgAt h' := by simp [configureRegs]
@[simp] theorem modeAt_configureRegs (p : PinId) (ch : Chan) (f : Nat) (s : State) (t' : Nat) :
    (configureRegs p ch f s).modeAt t' = if ch.timer = t' then .carrier else s.modeAt t' := by simp [configureRegs]
@[simp] theorem topAt_configureRegs (p : PinId) (ch : Chan) (f : Nat) (s : State) (t' : Nat) :
    (configureRegs p ch f s).topAt t' = if ch.timer = t' then some (divide s.platform f) else s.topAt t' := by simp [configureRegs]
@[simp] theorem phaseAt_configureRegs (p : PinId) (ch : Chan) (f : Nat) (s : State) (t' : Nat) :
    (configureRegs p ch f s).phaseAt t' = if ch.timer = t' then 0 else s.phaseAt t' := by simp [configureRegs]
@[simp] theorem cmpAt_configureRegs (p : PinId) (ch : Chan) (f : Nat) (s : State) (ch' : Chan) :
    (configureRegs p ch f s).cmpAt ch' = if ch = ch' then some (compareOf (divide s.platform f)) else s.cmpAt ch' := by simp [configureRegs]
@[simp] theorem enAt_configureRegs (p : PinId) (ch : Chan) (f : Nat) (s : State) (ch' : Chan) :
    (configureRegs p ch f s).enAt ch' = if ch = ch' then false else s.enAt ch' := by simp [configureRegs]
@[simp] theorem dirAt_configureRegs (p : PinId) (ch : Chan) (f : Nat) (s : State) (p' : PinId) :
    (configureRegs p ch f s).dirAt p' = if p = p' then .out else s.dirAt p' := by simp [configureRegs]
@[simp] theorem latchAt_configureRegs (p : PinId) (ch : Chan) (f : Nat) (s : State) (p' : PinId) :
    (configureRegs p ch f s).latchAt p' = if p = p' then false else s.latchAt p' := by simp [configureRegs]

@[simp] theorem onTimer_configureRegs (p : PinId) (ch : Chan) (f : Nat) (s : State) (t h : Nat) :
    (configureRegs p ch f s).onTimer t h = s.onTimer t h := by
  unfold State.onTimer
  rw [boundAt_configureRegs, pinAt_configureRegs, configureRegs_platform]

/-! ### commitConfigure -/

@[simp] theorem commitConfigure_platform (h : Nat) (p : PinId) (ch : Chan) (f : Nat) (s : State) : (commitConfigure h p ch f s).platform = s.platform := by simp [commitConfigure]
@[simp] theorem commitConfigure_stream (h : Nat) (p : PinId) (ch : Chan) (f : Nat) (s : State) : (commitConfigure h p ch f s).stream = s.stream := by simp [commitConfigure]
@[simp] theorem commitConfigure_turns (h : Nat) (p : PinId) (ch : Chan) (f : Nat) (s : State) : (commitConfigure h p ch f s).turns = s.turns := by simp [commitConfigure]
@[simp] theorem commitConfigure_cpc (h : Nat) (p : PinId) (ch : Chan) (f : Nat) (s : State) : (commitConfigure h p ch f s).cpc = s.cpc := by simp [commitConfigure]
@[simp] theorem commitConfigure_bound (h : Nat) (p : PinId) (ch : Chan) (f : Nat) (s : State) : (commitConfigure h p ch f s).bound = s.bound := by simp [commitConfigure]
@[simp] theorem commitConfigure_pin (h : Nat) (p : PinId) (ch : Chan) (f : Nat) (s : State) : (commitConfigure h p ch f s).pin = s.pin := by simp [commitConfigure]
@[simp] theorem commitConfigure_mode (h : Nat) (p : PinId) (ch : Chan) (f : Nat) (s : State) : (commitConfigure h p ch f s).mode = regSet natLt .stopped s.mode ch.timer .carrier := by simp [commitConfigure]
@[simp] theorem commitConfigure_top (h : Nat) (p : PinId) (ch : Chan) (f : Nat) (s : State) : (commitConfigure h p ch f s).top = regSet natLt none s.top ch.timer (some (divide s.platform f)) := by simp [commitConfigure]
@[simp] theorem commitConfigure_phase (h : Nat) (p : PinId) (ch : Chan) (f : Nat) (s : State) : (commitConfigure h p ch f s).phase = regSet natLt 0 s.phase ch.timer 0 := by simp [commitConfigure]
@[simp] theorem commitConfigure_cmp (h : Nat) (p : PinId) (ch : Chan) (f : Nat) (s : State) : (commitConfigure h p ch f s).cmp = regSet chanLt none s.cmp ch (some (compareOf (divide s.platform f))) := by simp [commitConfigure]
@[simp] theorem commitConfigure_en (h : Nat) (p : PinId) (ch : Chan) (f : Nat) (s : State) : (commitConfigure h p ch f s).en = regSet chanLt false s.en ch false := by simp [commitConfigure]
@[simp] theorem commitConfigure_dir (h : Nat) (p : PinId) (ch : Chan) (f : Nat) (s : State) : (commitConfigure h p ch f s).dir = regSet pinLt .inp s.dir p .out := by simp [commitConfigure]
@[simp] theorem commitConfigure_latch (h : Nat) (p : PinId) (ch : Chan) (f : Nat) (s : State) : (commitConfigure h p ch f s).latch = regSet pinLt false s.latch p false := by simp [commitConfigure]
@[simp] theorem commitConfigure_resp (h : Nat) (p : PinId) (ch : Chan) (f : Nat) (s : State) : (commitConfigure h p ch f s).resp = s.resp := by simp [commitConfigure]
@[simp] theorem commitConfigure_errlog (h : Nat) (p : PinId) (ch : Chan) (f : Nat) (s : State) : (commitConfigure h p ch f s).errlog = s.errlog := by simp [commitConfigure]
@[simp] theorem commitConfigure_fault (h : Nat) (p : PinId) (ch : Chan) (f : Nat) (s : State) : (commitConfigure h p ch f s).fault = s.fault := by simp [commitConfigure]
@[simp] theorem commitConfigure_trace (h : Nat) (p : PinId) (ch : Chan) (f : Nat) (s : State) : (commitConfigure h p ch f s).trace = s.trace := by simp [commitConfigure]
@[simp] theorem boundAt_commitConfigure (h : Nat) (p : PinId) (ch : Chan) (f : Nat) (s : State) (h' : Nat) : (commitConfigure h p ch f s).boundAt h' = s.boundAt h' := by simp [commitConfigure]
@[simp] theorem pinAt_commitConfigure (h : Nat) (p : PinId) (ch : Chan) (f : Nat) (s : State) (h' : Nat) : (commitConfigure h p ch f s).pinAt h' = s.pinAt h' := by simp [commitConfigure]
@[simp] theorem cfgAt_commitConfigure (h : Nat) (p : PinId) (ch : Chan) (f : Nat) (s : State) (h' : Nat) :
    (commitConfigure h p ch f s).cfgAt h' = if h = h' then true else if h' < s.platform.numHandles ∧ s.onTimer ch.timer h' = true then false else s.cfgAt h' := by
  by_cases e : h = h'
  · simp [commitConfigure, e]
  · have : h' ≠ h := fun x => e x.symm
    simp [commitConfigure, e, this]
@[simp] theorem modeAt_commitConfigure (h : Nat) (p : PinId) (ch : Chan) (f : Nat) (s : State) (t' : Nat) :
    (commitConfigure h p ch f s).modeAt t' = if ch.timer = t' then .carrier else s.modeAt t' := by simp [commitConfigure]
@[simp] theorem topAt_commitConfigure (h : Nat) (p : PinId) (ch : Chan) (f : Nat) (s : State) (t' : Nat) :
    (commitConfigure h p ch f s).topAt t' = if ch.timer = t' then some (divide s.platform f) else s.topAt t' := by simp [commitConfigure]
@[simp] theorem phaseAt_commitConfigure (h : Nat) (p : PinId) (ch : Chan) (f : Nat) (s : State) (t' : Nat) :
    (commitConfigure h p ch f s).phaseAt t' = if ch.timer = t' then 0 else s.phaseAt t' := by simp [commitConfigure]
@[simp] theorem cmpAt_commitConfigure (h : Nat) (p : PinId) (ch : Chan) (f : Nat) (s : State) (ch' : Chan) :
    (commitConfigure h p ch f s).cmpAt ch' = if ch = ch' then some (compareOf (divide s.platform f)) else s.cmpAt ch' := by simp [commitConfigure]
@[simp] theorem enAt_commitConfigure (h : Nat) (p : PinId) (ch : Chan) (f : Nat) (s : State) (ch' : Chan) :
    (commitConfigure h p ch f s).enAt ch' = if ch = ch' then false else s.enAt ch' := by simp [commitConfigure]
@[simp] theorem dirAt_commitConfigure (h : Nat) (p : PinId) (ch : Chan) (f : Nat) (s : State) (p' : PinId) :
    (commitConfigure h p ch f s).dirAt p' = if p = p' then .out else s.dirAt p' := by simp [commitConfigure]
@[simp] theorem latchAt_commitConfigure (h : Nat) (p : PinId) (ch : Chan) (f : Nat) (s : State) (p' : PinId) :
    (commitConfigure h p ch f s).latchAt p' = if p = p' then false else s.latchAt p' := by simp [commitConfigure]

end Sys2Proof.Machine
end

