-- ==== Sys2Proof/Laws/Exec.lean ====
section
/-! SUPPORT. Everything a command can do: when the shared checks let it through, and the cases of a next state. -/

namespace Sys2Proof.Machine

theorem badHandle_iff (s : State) (h : HandleField) : badHandle s h = true ↔ s.platform.numHandles ≤ h.toNat := by
  simp [badHandle]

theorem badHandle_false_iff (s : State) (h : HandleField) : badHandle s h = false ↔ h.toNat < s.platform.numHandles := by
  simp [badHandle]

/-- The checks let a command through: the handle exists, is bound and configured, and its pin is mapped to `ch`. -/
structure Passes (s : State) (h : HandleField) (p : PinId) (ch : Chan) : Prop where
  inRange : h.toNat < s.platform.numHandles
  bound   : s.boundAt h.toNat = true
  cfg     : s.cfgAt h.toNat = true
  pin     : s.pinAt h.toNat = some p
  chan    : chanOf s.platform p = some ch

theorem gated_of_passes {s : State} {h : HandleField} {p : PinId} {ch : Chan} (hp : Passes s h p ch)
    (act : PinId → Chan → State → State) : gated h act s = .next (act p ch s) := by
  unfold gated
  simp [(badHandle_false_iff s h).mpr hp.inRange, hp.bound, hp.cfg, hp.pin, hp.chan]

theorem gated_badHandle {s : State} {h : HandleField} (hb : s.platform.numHandles ≤ h.toNat)
    (act : PinId → Chan → State → State) : gated h act s = .next (report .badHandle s) := by
  unfold gated
  simp [(badHandle_iff s h).mpr hb]

theorem gated_notBound {s : State} {h : HandleField} (hb : h.toNat < s.platform.numHandles)
    (hn : s.boundAt h.toNat = false) (act : PinId → Chan → State → State) :
    gated h act s = .next (report .notBound s) := by
  unfold gated
  simp [(badHandle_false_iff s h).mpr hb, hn]

theorem gated_notConfigured {s : State} {h : HandleField} (hb : h.toNat < s.platform.numHandles)
    (hn : s.boundAt h.toNat = true) (hc : s.cfgAt h.toNat = false) (act : PinId → Chan → State → State) :
    gated h act s = .next (raise .notConfigured s) := by
  unfold gated
  simp [(badHandle_false_iff s h).mpr hb, hn, hc]

/-- A next state after the shared checks: a reported error, the fault entry, or the command's own transition. -/
theorem gated_cases {s t : State} {h : HandleField} {act : PinId → Chan → State → State}
    (ht : gated h act s = .next t) :
    (t = report .badHandle s ∧ s.platform.numHandles ≤ h.toNat) ∨
    (t = report .notBound s ∧ s.boundAt h.toNat = false) ∨
    (t = raise .notConfigured s ∧ s.boundAt h.toNat = true ∧ s.cfgAt h.toNat = false) ∨
    ∃ p ch, Passes s h p ch ∧ t = act p ch s := by
  unfold gated at ht
  split at ht
  · next hb => exact .inl ⟨by simpa using ht.symm, (badHandle_iff s h).mp hb⟩
  · next hb =>
    split at ht
    · next hn => exact .inr (.inl ⟨by simpa using ht.symm, hn⟩)
    · next hn =>
      split at ht
      · next hc => exact .inr (.inr (.inl ⟨by simpa using ht.symm, by simpa using hn, hc⟩))
      · next hc =>
        split at ht
        · cases ht
        · next p hp =>
          split at ht
          · cases ht
          · next ch hch =>
            refine .inr (.inr (.inr ⟨p, ch, ⟨?_, by simpa using hn, by simpa using hc, hp, hch⟩, by simpa using ht.symm⟩))
            exact (badHandle_false_iff s h).mp (by simpa using hb)

/-- `BIND` goes through: the handle exists and is free, and no bound handle holds the pin. -/
structure BindPasses (s : State) (h : HandleField) (p : PinId) : Prop where
  inRange : h.toNat < s.platform.numHandles
  free    : s.boundAt h.toNat = false
  written : s.pinsWritten = true
  unused  : s.pinInUse p = false

theorem execBind_of_passes {s : State} {h : HandleField} {p : PinId} (hp : BindPasses s h p) :
    execBind h p s = .next (retire 0 (commitBind h.toNat p s)) := by
  unfold execBind
  simp [(badHandle_false_iff s h).mpr hp.inRange, hp.free, hp.written, hp.unused]

theorem execBind_cases {s t : State} {h : HandleField} {p : PinId} (ht : execBind h p s = .next t) :
    (t = report .badHandle s ∧ s.platform.numHandles ≤ h.toNat) ∨
    (t = report .alreadyBound s ∧ s.boundAt h.toNat = true) ∨
    (t = report .pinInUse s ∧ s.pinInUse p = true) ∨
    (BindPasses s h p ∧ t = retire 0 (commitBind h.toNat p s)) := by
  unfold execBind at ht
  split at ht
  · next hb => exact .inl ⟨by simpa using ht.symm, (badHandle_iff s h).mp hb⟩
  · next hb =>
    split at ht
    · next hn => exact .inr (.inl ⟨by simpa using ht.symm, hn⟩)
    · next hn =>
      split at ht
      · cases ht
      · next hw =>
        split at ht
        · next hu => exact .inr (.inr (.inl ⟨by simpa using ht.symm, hu⟩))
        · next hu =>
          refine .inr (.inr (.inr ⟨⟨?_, by simpa using hn, by simpa using hw, by simpa using hu⟩, by simpa using ht.symm⟩))
          exact (badHandle_false_iff s h).mp (by simpa using hb)

/-- `CONFIGURE` goes through: the handle exists and is bound to a mapped pin, and the divider fits its timer. -/
structure ConfigurePasses (s : State) (h : HandleField) (f : BitVec 32) (p : PinId) (ch : Chan) : Prop where
  inRange : h.toNat < s.platform.numHandles
  bound   : s.boundAt h.toNat = true
  pin     : s.pinAt h.toNat = some p
  chan    : chanOf s.platform p = some ch
  freq    : freqOk s.platform ch.timer f.toNat = true
  written : s.pinsWritten = true

theorem execConfigure_of_passes {s : State} {h : HandleField} {f : BitVec 32} {p : PinId} {ch : Chan}
    (hp : ConfigurePasses s h f p ch) :
    execConfigure h f s = .next (retire 0 (commitConfigure h.toNat p ch f.toNat s)) := by
  unfold execConfigure
  simp [(badHandle_false_iff s h).mpr hp.inRange, hp.bound, hp.pin, hp.chan, hp.freq, hp.written]

theorem execConfigure_cases {s t : State} {h : HandleField} {f : BitVec 32} (ht : execConfigure h f s = .next t) :
    (t = report .badHandle s ∧ s.platform.numHandles ≤ h.toNat) ∨
    (t = report .notBound s ∧ s.boundAt h.toNat = false) ∨
    (t = report .unsupportedPin s ∧ ∃ p, s.pinAt h.toNat = some p ∧ chanOf s.platform p = none) ∨
    (t = report .freqRange s ∧
      ∃ p ch, s.pinAt h.toNat = some p ∧ chanOf s.platform p = some ch ∧ freqOk s.platform ch.timer f.toNat = false) ∨
    ∃ p ch, ConfigurePasses s h f p ch ∧ t = retire 0 (commitConfigure h.toNat p ch f.toNat s) := by
  unfold execConfigure at ht
  split at ht
  · next hb => exact .inl ⟨by simpa using ht.symm, (badHandle_iff s h).mp hb⟩
  · next hb =>
    split at ht
    · next hn => exact .inr (.inl ⟨by simpa using ht.symm, hn⟩)
    · next hn =>
      split at ht
      · cases ht
      · next p hp =>
        split at ht
        · next hch => exact .inr (.inr (.inl ⟨by simpa using ht.symm, p, hp, hch⟩))
        · next ch hch =>
          split at ht
          · next hf => exact .inr (.inr (.inr (.inl ⟨by simpa using ht.symm, p, ch, hp, hch, hf⟩)))
          · next hf =>
            split at ht
            · cases ht
            · next hw =>
              refine .inr (.inr (.inr (.inr ⟨p, ch, ⟨?_, by simpa using hn, hp, hch, by simpa using hf, by simpa using hw⟩,
                by simpa using ht.symm⟩)))
              exact (badHandle_false_iff s h).mp (by simpa using hb)

/-- Everything a command can do: a reported error (never of `REVERSE_BITS`), the fault entry of a gating command, or
the command's own effect. -/
inductive Ends (s : State) : Instr → State → Prop where
  | reported (i : Instr) (e : Status) (he : e ≠ .ok) (hr : ∀ v, i ≠ .reverseBits v) : Ends s i (retireWith e 0 s)
  | raisedMark (h : HandleField) (d : BitVec 32) (hc : s.cfgAt h.toNat = false) :
      Ends s (.mark h d) (raise .notConfigured s)
  | raisedSpace (h : HandleField) (d : BitVec 32) (hc : s.cfgAt h.toNat = false) :
      Ends s (.space h d) (raise .notConfigured s)
  | raisedSendByte (h : HandleField) (v : Byte) (m z o : BitVec 16) (hc : s.cfgAt h.toNat = false) :
      Ends s (.sendByte h v m z o) (raise .notConfigured s)
  | bound (h : HandleField) (p : PinId) (hp : BindPasses s h p) :
      Ends s (.bind h p) (retireWith .ok 0 (commitBind h.toNat p s))
  | configured (h : HandleField) (f : BitVec 32) (p : PinId) (ch : Chan) (hp : ConfigurePasses s h f p ch) :
      Ends s (.configure h f) (retireWith .ok 0 (commitConfigure h.toNat p ch f.toNat s))
  | marked (h : HandleField) (d : BitVec 32) (p : PinId) (ch : Chan) (hp : Passes s h p ch) :
      Ends s (.mark h d) (retireWith .ok 0 (gate h.toNat p ch .mark d.toNat s))
  | spaced (h : HandleField) (d : BitVec 32) (p : PinId) (ch : Chan) (hp : Passes s h p ch) :
      Ends s (.space h d) (retireWith .ok 0 (gate h.toNat p ch .space d.toNat s))
  | sent (h : HandleField) (v : Byte) (m z o : BitVec 16) (p : PinId) (ch : Chan) (hp : Passes s h p ch) :
      Ends s (.sendByte h v m z o)
        (retireWith .ok 0 (gates h.toNat p ch (byteGates v m.toNat z.toNat o.toNat) s))
  | reversed (v : Byte) : Ends s (.reverseBits v) (retireWith .ok (rev8 v) s)

theorem exec_mark (h : HandleField) (d : BitVec 32) (s : State) :
    exec (.mark h d) s = gated h (fun p ch s => retire 0 (gate h.toNat p ch .mark d.toNat s)) s := rfl

theorem exec_space (h : HandleField) (d : BitVec 32) (s : State) :
    exec (.space h d) s = gated h (fun p ch s => retire 0 (gate h.toNat p ch .space d.toNat s)) s := rfl

theorem exec_sendByte (h : HandleField) (v : Byte) (m z o : BitVec 16) (s : State) :
    exec (.sendByte h v m z o) s =
      gated h (fun p ch s => retire 0 (gates h.toNat p ch (byteGates v m.toNat z.toNat o.toNat) s)) s := rfl

theorem exec_reverseBits (v : Byte) (s : State) : exec (.reverseBits v) s = .next (retireWith .ok (rev8 v) s) := rfl

theorem exec_bind (h : HandleField) (p : PinId) (s : State) : exec (.bind h p) s = execBind h p s := rfl

theorem exec_configure (h : HandleField) (f : BitVec 32) (s : State) :
    exec (.configure h f) s = execConfigure h f s := rfl

/-- The effect of each command that passes its checks. -/
theorem exec_bind_passes {s : State} {h : HandleField} {p : PinId} (hp : BindPasses s h p) :
    exec (.bind h p) s = .next (retireWith .ok 0 (commitBind h.toNat p s)) := by
  rw [exec_bind, execBind_of_passes hp, retire_eq]

theorem exec_configure_passes {s : State} {h : HandleField} {f : BitVec 32} {p : PinId} {ch : Chan}
    (hp : ConfigurePasses s h f p ch) :
    exec (.configure h f) s = .next (retireWith .ok 0 (commitConfigure h.toNat p ch f.toNat s)) := by
  rw [exec_configure, execConfigure_of_passes hp, retire_eq]

theorem exec_mark_passes {s : State} {h : HandleField} {p : PinId} {ch : Chan} (hp : Passes s h p ch) (d : BitVec 32) :
    exec (.mark h d) s = .next (retireWith .ok 0 (gate h.toNat p ch .mark d.toNat s)) := by
  rw [exec_mark, gated_of_passes hp, retire_eq]

theorem exec_space_passes {s : State} {h : HandleField} {p : PinId} {ch : Chan} (hp : Passes s h p ch) (d : BitVec 32) :
    exec (.space h d) s = .next (retireWith .ok 0 (gate h.toNat p ch .space d.toNat s)) := by
  rw [exec_space, gated_of_passes hp, retire_eq]

theorem exec_sendByte_passes {s : State} {h : HandleField} {p : PinId} {ch : Chan} (hp : Passes s h p ch) (v : Byte)
    (m z o : BitVec 16) :
    exec (.sendByte h v m z o) s =
      .next (retireWith .ok 0 (gates h.toNat p ch (byteGates v m.toNat z.toNat o.toNat) s)) := by
  rw [exec_sendByte, gated_of_passes hp, retire_eq]

/-- The cases of a next state of a command. -/
theorem exec_ends {i : Instr} {s t : State} (ht : exec i s = .next t) : Ends s i t := by
  cases i with
  | bind h p =>
    rcases execBind_cases ht with ⟨rfl, _⟩ | ⟨rfl, _⟩ | ⟨rfl, _⟩ | ⟨hp, rfl⟩
    · exact .reported _ _ (by decide) (by simp)
    · exact .reported _ _ (by decide) (by simp)
    · exact .reported _ _ (by decide) (by simp)
    · exact .bound h p hp
  | configure h f =>
    rcases execConfigure_cases ht with ⟨rfl, _⟩ | ⟨rfl, _⟩ | ⟨rfl, _⟩ | ⟨rfl, _⟩ | ⟨p, ch, hp, rfl⟩
    · exact .reported _ _ (by decide) (by simp)
    · exact .reported _ _ (by decide) (by simp)
    · exact .reported _ _ (by decide) (by simp)
    · exact .reported _ _ (by decide) (by simp)
    · exact .configured h f p ch hp
  | mark h d =>
    rw [exec_mark] at ht
    rcases gated_cases ht with ⟨rfl, _⟩ | ⟨rfl, _⟩ | ⟨rfl, _, hc⟩ | ⟨p, ch, hp, rfl⟩
    · exact .reported _ _ (by decide) (by simp)
    · exact .reported _ _ (by decide) (by simp)
    · exact .raisedMark h d hc
    · exact .marked h d p ch hp
  | space h d =>
    rw [exec_space] at ht
    rcases gated_cases ht with ⟨rfl, _⟩ | ⟨rfl, _⟩ | ⟨rfl, _, hc⟩ | ⟨p, ch, hp, rfl⟩
    · exact .reported _ _ (by decide) (by simp)
    · exact .reported _ _ (by decide) (by simp)
    · exact .raisedSpace h d hc
    · exact .spaced h d p ch hp
  | sendByte h v m z o =>
    rw [exec_sendByte] at ht
    rcases gated_cases ht with ⟨rfl, _⟩ | ⟨rfl, _⟩ | ⟨rfl, _, hc⟩ | ⟨p, ch, hp, rfl⟩
    · exact .reported _ _ (by decide) (by simp)
    · exact .reported _ _ (by decide) (by simp)
    · exact .raisedSendByte h v m z o hc
    · exact .sent h v m z o p ch hp
  | reverseBits v =>
    rw [exec_reverseBits] at ht
    cases ht
    exact .reversed v

/-- The shared checks refuse nothing. -/
theorem gated_ne_refused (h : HandleField) (act : PinId → Chan → State → State) (s : State) (r : Refusal) :
    gated h act s ≠ .refused r := by
  unfold gated
  repeat' split
  all_goals exact nofun

/-- No command is refused. -/
theorem exec_ne_refused (i : Instr) (s : State) (r : Refusal) : exec i s ≠ .refused r := by
  cases i with
  | bind h p =>
    rw [exec_bind, execBind]
    repeat' split
    all_goals exact nofun
  | configure h f =>
    rw [exec_configure, execConfigure]
    repeat' split
    all_goals exact nofun
  | mark h d => rw [exec_mark]; exact gated_ne_refused h _ s r
  | space h d => rw [exec_space]; exact gated_ne_refused h _ s r
  | sendByte h v m z o => rw [exec_sendByte]; exact gated_ne_refused h _ s r
  | reverseBits v => rw [exec_reverseBits]; exact nofun

end Sys2Proof.Machine
end

