-- ==== Sys2Proof/Laws/Step.lean ====
section
/-! SUPPORT. Everything a step can do, and the tick step. -/

namespace Sys2Proof.Machine

/-- The next state of a tick step: unchanged for a stopped timer, else the phase advanced within the period. -/
theorem tick_cases {t : Nat} {s s' : State} (h : tick t s = .next s') :
    (s.modeAt t = .stopped ∧ s' = s) ∨
    ∃ top, s.modeAt t = .carrier ∧ s.topAt t = some top ∧ slopeTicks s.platform.slope * top ≠ 0 ∧
      s' = s.setPhase t ((s.phaseAt t + 1) % (slopeTicks s.platform.slope * top)) := by
  unfold tick at h
  split at h
  · next hm => exact .inl ⟨hm, by simpa using h.symm⟩
  · next hm =>
    split at h
    · cases h
    · next top htop =>
      split at h
      · cases h
      · next hz => exact .inr ⟨top, hm, htop, hz, by simpa using h.symm⟩

theorem tick_stopped {t : Nat} {s : State} (hm : s.modeAt t = .stopped) : tick t s = .next s := by
  unfold tick
  rw [hm]

theorem tick_running {t top : Nat} {s : State} (hm : s.modeAt t = .carrier) (htop : s.topAt t = some top)
    (hz : slopeTicks s.platform.slope * top ≠ 0) :
    tick t s = .next (s.setPhase t ((s.phaseAt t + 1) % (slopeTicks s.platform.slope * top))) := by
  unfold tick
  rw [hm, htop]
  exact if_neg hz

/-- The turns that remain after the next step. -/
def turnsLeft (s : State) : List Turn := s.turns.tail

/-- Everything a step can do. -/
inductive Steps (s : State) : State → Prop where
  /-- A stopped timer's turn passes. -/
  | idleTick (t : Nat) (hh : s.turns = .tick t :: turnsLeft s) (hm : s.modeAt t = .stopped) :
      Steps s (s.setTurns (turnsLeft s))
  /-- A running timer ticks. -/
  | ticked (t top : Nat) (hh : s.turns = .tick t :: turnsLeft s) (hm : s.modeAt t = .carrier)
      (htop : s.topAt t = some top) (hz : slopeTicks s.platform.slope * top ≠ 0) :
      Steps s ((s.setTurns (turnsLeft s)).setPhase t ((s.phaseAt t + 1) % (slopeTicks s.platform.slope * top)))
  /-- The sequencer waits for the host. -/
  | waits (hh : s.turns.head?.getD .command = .command) (hf : s.fault = none) (hw : fetch s = none) :
      Steps s (s.setTurns (turnsLeft s))
  /-- An illegal word is reported. -/
  | illegal (w : Word) (r : DecodeError) (hh : s.turns.head?.getD .command = .command) (hf : s.fault = none)
      (hw : fetch s = some w) (hd : decode w = .error r) :
      Steps s (retireWith .illegalCommand 0 (s.setTurns (turnsLeft s)))
  /-- A command is executed. -/
  | executed (w : Word) (i : Instr) (s' : State) (hh : s.turns.head?.getD .command = .command) (hf : s.fault = none)
      (hw : fetch s = some w) (hd : decode w = .ok i) (he : Ends (s.setTurns (turnsLeft s)) i s') : Steps s s'

theorem setTurns_self (s : State) : s.setTurns s.turns = s := rfl

@[simp] theorem fetch_setTurns (s : State) (ts : List Turn) : fetch (s.setTurns ts) = fetch s := rfl

theorem commandStep_faulted {s : State} (hf : s.fault ≠ none) : commandStep s = .fault .blockStopped := by
  obtain ⟨r, hr⟩ := Option.ne_none_iff_exists'.mp hf
  unfold commandStep
  rw [hr]

theorem commandStep_waits {s : State} (hf : s.fault = none) (hw : fetch s = none) : commandStep s = .next s := by
  unfold commandStep
  rw [hf, hw]

theorem commandStep_executes {s : State} {w : Word} {i : Instr} (hf : s.fault = none) (hw : fetch s = some w)
    (hd : decode w = .ok i) : commandStep s = exec i s := by
  unfold commandStep
  rw [hf, hw]
  simp only [hd]

theorem commandStep_illegal {s : State} {w : Word} {r : DecodeError} (hf : s.fault = none) (hw : fetch s = some w)
    (hd : decode w = .error r) : commandStep s = .next (retireWith .illegalCommand 0 s) := by
  unfold commandStep
  rw [hf, hw]
  simp only [hd]
  rfl

/-- Everything the sequencer's step can do. -/
theorem commandStep_cases {s s' : State} (h : commandStep s = .next s') :
    s.fault = none ∧
    ((fetch s = none ∧ s' = s) ∨
     (∃ w r, fetch s = some w ∧ decode w = .error r ∧ s' = retireWith .illegalCommand 0 s) ∨
     ∃ w i, fetch s = some w ∧ decode w = .ok i ∧ exec i s = .next s') := by
  unfold commandStep at h
  split at h
  · cases h
  · next hf =>
    refine ⟨hf, ?_⟩
    split at h
    · next hw => exact .inl ⟨hw, by simpa using h.symm⟩
    · next w hw =>
      split at h
      · next i hd => exact .inr (.inr ⟨w, i, hw, hd, h⟩)
      · next r hd => exact .inr (.inl ⟨w, r, hw, hd, by simpa [execIllegal] using h.symm⟩)

/-- The sequencer's turn: the step is its step once the turn is taken. -/
theorem step_of_command {s : State} (hp : s.platform.wf = true) (hh : s.turns.head?.getD .command = .command) :
    step s = commandStep (s.setTurns (turnsLeft s)) := by
  have hs : ∀ ts, s.turns = ts → turnsLeft s = ts.tail := fun ts h => by rw [turnsLeft, h]
  unfold step
  rw [if_pos hp]
  split
  · next e => rw [hs _ e, List.tail_nil, ← e, setTurns_self]
  · next ts e => rw [hs _ e, List.tail_cons]
  · next t ts e => rw [e] at hh; cases hh

/-- A timer's turn: the step is its tick once the turn is taken. -/
theorem step_of_tick {s : State} {t : Nat} {ts : List Turn} (hp : s.platform.wf = true) (hh : s.turns = .tick t :: ts) :
    step s = tick t (s.setTurns ts) := by
  unfold step
  rw [if_pos hp, hh]

theorem step_steps {s s' : State} (h : step s = .next s') : s.platform.wf = true ∧ Steps s s' := by
  have hp : s.platform.wf = true := by
    by_contra hp
    rw [step, if_neg hp] at h
    cases h
  refine ⟨hp, ?_⟩
  have hcmd : s.turns.head?.getD .command = .command → Steps s s' := fun hh => by
    rw [step_of_command hp hh] at h
    rcases commandStep_cases h with ⟨hf, ⟨hw, rfl⟩ | ⟨w, r, hw, hd, rfl⟩ | ⟨w, i, hw, hd, he⟩⟩
    · exact .waits hh hf hw
    · exact .illegal w r hh hf hw hd
    · exact .executed w i s' hh hf hw hd (exec_ends he)
  cases hts : s.turns with
  | nil => exact hcmd (by simp [hts])
  | cons x ts =>
    cases x with
    | command => exact hcmd (by simp [hts])
    | tick t =>
      have hl : turnsLeft s = ts := by rw [turnsLeft, hts, List.tail_cons]
      rw [step_of_tick hp hts, ← hl] at h
      rw [← hl] at hts
      rcases tick_cases h with ⟨hm, rfl⟩ | ⟨top, hm, htop, hz, rfl⟩
      · exact .idleTick t hts hm
      · exact .ticked t top hts hm htop hz

end Sys2Proof.Machine
end

