-- ==== Sys2Proof/Laws/Ends.lean ====
section
/-! SUPPORT. The command that a step executes, the ends of a command in the terms of claims, the error log,
the platform's lookups, the serializer and the pin levels: one spec lemma each. -/

namespace Sys2Proof.Machine

/-! ### The command that a step executes -/

theorem executes_of_tick {s : State} {k : Nat} {ts : List Turn} (h : s.turns = .tick k :: ts) : s.executes = none := by
  unfold State.executes
  rw [h]
  simp

theorem executes_of_wait {s : State} (hw : fetch s = none) : s.executes = none := by
  unfold State.executes
  rw [hw]
  split <;> simp_all

theorem executes_of_command {s : State} {w : Word} {i : Instr} (hh : s.turns.head?.getD .command = .command)
    (hf : s.fault = none) (hw : fetch s = some w) (hd : decode w = .ok i) : s.executes = some i := by
  unfold State.executes
  rw [hh, hf, hw]
  simp [hd, Except.toOption]

theorem executes_of_illegal {s : State} {w : Word} {r : DecodeError} (hh : s.turns.head?.getD .command = .command)
    (hf : s.fault = none) (hw : fetch s = some w) (hd : decode w = .error r) : s.executes = none := by
  unfold State.executes
  rw [hh, hf, hw]
  simp [hd, Except.toOption]

/-- A step of a run. -/
theorem runFor_of_next {s t : State} (h : step s = .next t) (n : Nat) : runFor (n + 1) s = runFor n t := by
  rw [runFor, h]

/-! ### The error log -/

theorem mem_allStatus (x : Status) : x ∈ allStatus := by cases x <;> decide

theorem mem_logWith (l : List Status) (e x : Status) : x ∈ logWith l e ↔ x ∈ l ∨ x = e := by
  simp [logWith, mem_allStatus, or_comm]

theorem logWith_wf (l : List Status) (e : Status) : logWf (logWith l e) := by
  show logWith l e = _
  rw [logWith]
  refine List.filter_congr fun x hx => ?_
  rw [Bool.eq_iff_iff, List.contains_iff_mem, List.mem_filter]
  exact ⟨fun h => ⟨hx, h⟩, fun h => h.2⟩

theorem statusCode_eq_zero {e : Status} (h : statusCode e = 0) : e = .ok := by cases e <;> first | rfl | cases h

theorem statusCode_lt (e : Status) : (statusCode e).toNat ≤ 7 := by cases e <;> decide

@[simp] theorem respOf_ok (v : Byte) : respOf .ok v = ⟨0, v⟩ := rfl

@[simp] theorem respOf_status (e : Status) (v : Byte) : (respOf e v).status = statusCode e := rfl

theorem respOf_zero (e : Status) : respOf e 0 = ⟨statusCode e, 0⟩ := by simp [respOf]

/-! ### How a command ends -/

/-- A reported error in the terms of claims. -/
theorem reportedOnly_report {e : Status} (he : e ≠ .ok) (s : State) : ReportedOnly e s (retireWith e 0 s) :=
  ⟨respOf_zero e, fun x => by simp [he, mem_logWith], rfl, rfl, rfl, ⟨rfl, rfl, rfl⟩, ⟨rfl, rfl, rfl⟩, ⟨rfl, rfl⟩, ⟨rfl, rfl⟩,
    ⟨rfl, rfl, rfl⟩⟩

/-- The gating commands are their shared checks and a transition of their own. -/
theorem exec_eq_gated {i : Instr} {h : HandleField} (hg : isGating i = true) (hi : handleOf i = some h) (s : State) :
    ∃ act, exec i s = gated h act s := by
  cases i <;> cases hi <;> cases hg
  · exact ⟨_, exec_mark h _ s⟩
  · exact ⟨_, exec_space h _ s⟩
  · exact ⟨_, exec_sendByte h _ _ _ _ s⟩

/-- The checks read only the platform and the handle registers. -/
theorem Passes.mono {s t : State} {h : HandleField} {p : PinId} {ch : Chan} (hp : Passes s h p ch)
    (h1 : t.platform = s.platform) (h2 : t.bound = s.bound) (h3 : t.cfg = s.cfg) (h4 : t.pin = s.pin) :
    Passes t h p ch := by
  obtain ⟨a, b, c, d, e⟩ := hp
  exact ⟨by rw [h1]; exact a, by rw [State.boundAt, h2]; exact b, by rw [State.cfgAt, h3]; exact c,
    by rw [State.pinAt, h4]; exact d, by rw [h1]; exact e⟩

/-! ### The platform's lookups -/

theorem lookupPin_mem {es : List (PinId × Chan)} {p : PinId} {ch : Chan} (h : lookupPin es p = some ch) : (p, ch) ∈ es := by
  induction es with
  | nil => cases h
  | cons e es ih =>
    rw [lookupPin] at h
    split at h
    · next he =>
      cases h
      subst he
      exact List.mem_cons_self
    · exact List.mem_cons_of_mem _ (ih h)

theorem lookupPin_of_mem {es : List (PinId × Chan)} (hd : (es.map Prod.fst).Nodup) {p : PinId} {ch : Chan}
    (h : (p, ch) ∈ es) : lookupPin es p = some ch := by
  induction es with
  | nil => cases h
  | cons e es ih =>
    rw [List.map_cons, List.nodup_cons] at hd
    rw [lookupPin]
    rcases List.mem_cons.mp h with rfl | h
    · simp
    · have : e.1 ≠ p := fun he => hd.1 (he ▸ List.mem_map_of_mem h)
      rw [if_neg this]
      exact ih hd.2 h

/-- The checks of a well-formed platform, one by one. -/
theorem wf_checks {P : Platform} (h : P.wf = true) :
    P.clockOk = true ∧ P.handlesOk = true ∧ P.timersOk = true ∧ P.channelsOk = true ∧ P.widthsOk = true ∧
      P.pinsOk = true ∧ P.entriesOk = true ∧ P.injectiveOk = true := by
  simpa [Platform.wf, and_assoc] using h

/-- No two pins of a well-formed platform map to one channel (R106 (b)). -/
theorem chanOf_injective {P : Platform} (h : P.wf = true) {p q : PinId} {ch : Chan} (hp : chanOf P p = some ch)
    (hq : chanOf P q = some ch) : p = q := by
  have hi : (P.pinMap.map Prod.snd).Nodup := by simpa [Platform.injectiveOk] using (wf_checks h).2.2.2.2.2.2.2
  have := List.inj_on_of_nodup_map hi (lookupPin_mem hp) (lookupPin_mem hq) rfl
  exact congrArg Prod.fst this

theorem freqOk_iff (P : Platform) (t f : Nat) :
    freqOk P t f = true ↔ 1 ≤ f ∧ 3 ≤ divide P f ∧ divide P f ≤ 2 ^ timerWidth P t - 1 := by
  simp [freqOk, and_assoc]

theorem compareOf_eq (top : Nat) : compareOf top = top / 3 := rfl

theorem slopeTicks_pos (sl : Slope) : 0 < slopeTicks sl := by cases sl <;> decide

/-! ### The serializer -/

/-- The gates of a byte, by bit number (R142). -/
theorem serialize_eq (m z o n : Nat) (x : Byte) :
    serialize m z o n x =
      (List.range n).flatMap fun i => [(.mark, m), (.space, if x.getLsbD i then o else z)] := by
  induction n generalizing x with
  | zero => rfl
  | succ n ih =>
    rw [serialize, ih, List.range_succ_eq_map, List.flatMap_cons, List.flatMap_map]
    simp [Nat.add_comm]

theorem lastBit_append (b : Bool) (gs hs : List (WaitKind × Nat)) : lastBit b (gs ++ hs) = lastBit (lastBit b gs) hs := by
  induction gs generalizing b with
  | nil => rfl
  | cons g gs ih => exact ih _

/-- A byte ends with the carrier off (R140). -/
theorem lastBit_byteGates (b : Bool) (v : Byte) (m z o : Nat) : lastBit b (byteGates v m z o) = false := rfl

/-! ### Pin levels -/

/-- A driven, mapped pin whose channel is off shows the latch (R33). -/
theorem pinOut_off {s : State} {p : PinId} {ch : Chan} (hd : s.dirAt p = .out) (hc : chanOf s.platform p = some ch)
    (he : s.enAt ch = false) : pinOut s p = .ok (.bit (s.latchAt p)) := by
  simp [pinOut, hd, hc, he]

/-- A driven, mapped pin whose channel is on and whose timer runs shows the carrier (R33). -/
theorem pinOut_on {s : State} {p : PinId} {ch : Chan} {top c : Nat} (hd : s.dirAt p = .out)
    (hc : chanOf s.platform p = some ch) (he : s.enAt ch = true) (hm : s.modeAt ch.timer = .carrier)
    (ht : s.topAt ch.timer = some top) (hcmp : s.cmpAt ch = some c) :
    pinOut s p = .ok (.bit (carrierBit s.platform.slope (s.phaseAt ch.timer) top c)) := by
  unfold pinOut
  rw [hd, hc]
  simp only [reduceCtorEq, if_false, he, hm, and_self, if_true, carrierLevel, hcmp, ht]
  cases s.platform.slope <;> rfl

end Sys2Proof.Machine
end

