-- ==== Sys2Proof/Laws/PerInstr.lean ====
section
/-! SUPPORT. The family "Row", one lemma per constructor: the word of a command selects its own row of the opcode map, so
its opcode is the row's and its reserved bits are 0 (R78). -/

namespace Sys2Proof.Laws.Row

/-- The command's word selects the command's row (R78). -/
def Statement (i : Instr) : Prop := (opRow i).selects (encode i) = true

theorem bind (h : HandleField) (pinid : PinId) : Statement (.bind h pinid) := by
  have hm : 0xF0FFFFFFFFFF0000#64 = 0xF#4 ++ 0#4 ++ 0xFFFFFFFFFF#40 ++ 0#16 := by decide
  refine beq_iff_eq.mpr ?_
  rw [opRow, encode, hm, BitVec.and_append, BitVec.and_append, BitVec.and_append]
  simp

theorem configure (h : HandleField) (freq : BitVec 32) : Statement (.configure h freq) := by
  have hm : 0xF0FFFFFF00000000#64 = 0xF#4 ++ 0#4 ++ 0xFFFFFF#24 ++ 0#32 := by decide
  refine beq_iff_eq.mpr ?_
  rw [opRow, encode, hm, BitVec.and_append, BitVec.and_append, BitVec.and_append]
  simp

theorem mark (h : HandleField) (dur : BitVec 32) : Statement (.mark h dur) := by
  have hm : 0xF0FFFFFF00000000#64 = 0xF#4 ++ 0#4 ++ 0xFFFFFF#24 ++ 0#32 := by decide
  refine beq_iff_eq.mpr ?_
  rw [opRow, encode, hm, BitVec.and_append, BitVec.and_append, BitVec.and_append]
  simp

theorem space (h : HandleField) (dur : BitVec 32) : Statement (.space h dur) := by
  have hm : 0xF0FFFFFF00000000#64 = 0xF#4 ++ 0#4 ++ 0xFFFFFF#24 ++ 0#32 := by decide
  refine beq_iff_eq.mpr ?_
  rw [opRow, encode, hm, BitVec.and_append, BitVec.and_append, BitVec.and_append]
  simp

theorem sendByte (h : HandleField) (val : Byte) (markDur zeroDur oneDur : BitVec 16) :
    Statement (.sendByte h val markDur zeroDur oneDur) := by
  have hm : 0xF000000000000000#64 = 0xF#4 ++ 0#4 ++ 0#8 ++ 0#16 ++ 0#16 ++ 0#16 := by decide
  refine beq_iff_eq.mpr ?_
  rw [opRow, encode, hm, BitVec.and_append, BitVec.and_append, BitVec.and_append, BitVec.and_append, BitVec.and_append]
  simp

theorem reverseBits (val : Byte) : Statement (.reverseBits val) := by
  have hm : 0xFFFFFFFFFFFFFF00#64 = 0xF#4 ++ 0xFFFFFFFFFFFFF#52 ++ 0#8 := by decide
  refine beq_iff_eq.mpr ?_
  rw [opRow, encode, hm, BitVec.and_append, BitVec.and_append]
  simp

end Sys2Proof.Laws.Row
end

