-- ==== Sys2Proof/Tests/Slice0.lean ====
section
/-! SUPPORT. The model's own tests: words and numbers of the spec's test vectors (95_test_vectors.md, named W and V below),
ill-formed terms that the checks refuse, and for every obligation with hypotheses a concrete state and operands that meet
them together. -/

namespace Sys2Proof.Machine

/-- A fact about the next state. -/
def onNext (o : Host.Outcome State Fault Refusal) (f : State → Bool) : Bool :=
  match o with
  | .next t => f t
  | .fault _ => false
  | .refused _ => false

/-- An outcome with a fact about its next state. -/
theorem of_onNext {o : Host.Outcome State Fault Refusal} {p : State → Prop} [DecidablePred p]
    (h : onNext o (fun t => decide (p t)) = true) : ∃ t, o = .next t ∧ p t := by
  cases o with
  | next t => exact ⟨t, rfl, by simpa [onNext] using h⟩
  | fault r => cases h
  | refused r => cases h

/-- The state after commands, on the reference instance from reset; the stream has room for nine words. -/
def after (is : List Instr) : State :=
  match execAll is (State.resetOn Platform.reference (List.replicate 9 0x6000000000000005#64) []) with
  | .next t => t
  | .fault _ => State.reset
  | .refused _ => State.reset


/-! ### Small states -/

/-- Handle 0 on pin 3, configured at 38000 Hz, with nine words in the stream: what `bind 0, 3; cfg 0, 38000` leave. -/
def configured : State :=
  { State.resetOn Platform.reference (List.replicate 9 0x6000000000000005#64) [] with
    cpc := 2
    bound := [(0, true)]
    pin := [(0, some 3)]
    cfg := [(0, true)]
    mode := [(2, .carrier)]
    top := [(2, some 210)]
    cmp := [(⟨2, 1⟩, some 70)]
    dir := [(3, .out)] }

/-- Handle 0 bound to pin `p`, nothing else. -/
def boundTo (p : PinId) : State := { State.reset with bound := [(0, true)], pin := [(0, some p)] }

/-- A faulted block with a running timer. -/
def faulted (ts : List Turn) : State := { configured with fault := some ⟨.notConfigured, 2⟩, turns := ts }

/-- A block with one word and the agents' turns `ts`. -/
def withWord (w : Word) (ts : List Turn) : State := State.resetOn Platform.reference [w] ts

/-- Handles 0 and 1 on the two channels of timer 1, both configured. -/
def cotenants : State :=
  { State.reset with
    bound := [(0, true), (1, true)]
    pin := [(0, some 9), (1, some 10)]
    cfg := [(0, true), (1, true)]
    mode := [(1, .carrier)]
    top := [(1, some 210)]
    cmp := [(⟨1, 0⟩, some 70), (⟨1, 1⟩, some 70)]
    dir := [(9, .out), (10, .out)] }

/-- A state that no run reaches: registers that hold no value, bound and in use. -/
def unwritten : State :=
  { State.reset with
    bound := [(0, true)]
    cfg := [(0, true)]
    mode := [(1, .carrier)]
    en := [(⟨1, 0⟩, true)]
    dir := [(9, .out)] }

/-! ### Ill-formed terms are refused (R6, R106, R83) -/

theorem test_wf_clock :
    ({ Platform.reference with fClk := 0 }).clockOk = false ∧ ({ Platform.reference with fClk := 0 }).wf = false := by decide

theorem test_wf_handles :
    ({ Platform.reference with numHandles := 17 }).handlesOk = false ∧ ({ Platform.reference with numHandles := 17 }).wf = false := by decide

theorem test_wf_no_handles :
    ({ Platform.reference with numHandles := 0 }).handlesOk = false ∧ ({ Platform.reference with numHandles := 0 }).wf = false := by decide

theorem test_wf_timers :
    ({ Platform.reference with timers := [⟨1, 16, [0, 1]⟩, ⟨2, 8, [0, 1]⟩, ⟨1, 8, [0]⟩] }).timersOk = false ∧ ({ Platform.reference with timers := [⟨1, 16, [0, 1]⟩, ⟨2, 8, [0, 1]⟩, ⟨1, 8, [0]⟩] }).wf = false := by decide

theorem test_wf_channels :
    ({ Platform.reference with timers := [⟨1, 16, [0, 1]⟩, ⟨2, 8, [0, 1, 0]⟩] }).channelsOk = false ∧ ({ Platform.reference with timers := [⟨1, 16, [0, 1]⟩, ⟨2, 8, [0, 1, 0]⟩] }).wf = false := by decide

theorem test_wf_widths :
    ({ Platform.reference with timers := [⟨1, 16, [0, 1]⟩, ⟨2, 1, [0, 1]⟩] }).widthsOk = false ∧ ({ Platform.reference with timers := [⟨1, 16, [0, 1]⟩, ⟨2, 1, [0, 1]⟩] }).wf = false := by decide

theorem test_wf_pins :
    ({ Platform.reference with pinMap := [(3#16, ⟨2, 1⟩), (3#16, ⟨1, 0⟩)] }).pinsOk = false ∧ ({ Platform.reference with pinMap := [(3#16, ⟨2, 1⟩), (3#16, ⟨1, 0⟩)] }).wf = false := by decide

theorem test_wf_entries :
    ({ Platform.reference with pinMap := [(3#16, ⟨2, 2⟩)] }).entriesOk = false ∧ ({ Platform.reference with pinMap := [(3#16, ⟨2, 2⟩)] }).wf = false := by decide

theorem test_wf_injective :
    ({ Platform.reference with pinMap := [(3#16, ⟨2, 1⟩), (4#16, ⟨2, 1⟩)] }).injectiveOk = false ∧ ({ Platform.reference with pinMap := [(3#16, ⟨2, 1⟩), (4#16, ⟨2, 1⟩)] }).wf = false := by decide

theorem test_wf_reference :
    Platform.reference.wf = true := by decide

/-- Each operand one above its field is an assembly error (R83). -/
theorem test_asm_operand_too_wide :
    [AsmLine.bind 16 0, .bind 0 65536, .cfg 16 0, .cfg 0 4294967296, .mark 16 0, .mark 0 4294967296, .space 16 0,
      .space 0 4294967296, .sendbyte 16 0 0 0 0, .sendbyte 0 256 0 0 0, .sendbyte 0 0 65536 0 0, .sendbyte 0 0 0 65536 0,
      .sendbyte 0 0 0 0 65536, .rev 256, .sendbyteMsb 0 256 0 0 0, .off 16,
      .word64 18446744073709551616].all (fun l => assemble l == none) = true := by decide

/-! ### Decoding and encoding (V1: the bits of each format) -/

theorem test_decode_bind :
    decode 0b0001111100000000000000000000000000000000000000000000000000000011#64 =
      .ok (.bind 15 3) ∧ encode (.bind 15 3) =
      0b0001111100000000000000000000000000000000000000000000000000000011#64 := by decide

theorem test_decode_configure :
    decode 0b0010000000000000000000000000000000000000000000001001010001110000#64 =
      .ok (.configure 0 38000) ∧ encode (.configure 0 38000) =
      0b0010000000000000000000000000000000000000000000001001010001110000#64 := by decide

theorem test_decode_mark :
    decode 0b0011001000000000000000000000000000000000000000000000000001100100#64 =
      .ok (.mark 2 100) ∧ encode (.mark 2 100) =
      0b0011001000000000000000000000000000000000000000000000000001100100#64 := by decide

theorem test_decode_space :
    decode 0b0100000000000000000000000000000011111111111111111111111111111111#64 =
      .ok (.space 0 4294967295) ∧ encode (.space 0 4294967295) =
      0b0100000000000000000000000000000011111111111111111111111111111111#64 := by decide

theorem test_decode_sendByte :
    decode 0b0101000000000101000000011111010000000001111101010000010111011100#64 =
      .ok (.sendByte 0 5 500 501 1500) ∧ encode (.sendByte 0 5 500 501 1500) =
      0b0101000000000101000000011111010000000001111101010000010111011100#64 := by decide

theorem test_decode_reverseBits :
    decode 0b0110000000000000000000000000000000000000000000000000000011000100#64 =
      .ok (.reverseBits 0xC4) ∧ encode (.reverseBits 0xC4) =
      0b0110000000000000000000000000000000000000000000000000000011000100#64 := by decide

/-- V1a, V1b, V1c. -/
theorem test_decode_reserved_opcodes :
    [0x0000000000000000#64, 0x7000000000000000#64, 0xFFFFFFFFFFFFFFFF#64].all
      (fun w => decode w == .error .reservedOpcode) = true := by decide

/-- V1f, V1h, V1i, V1m, V1n. -/
theorem test_decode_reserved_bits :
    [0x1000000000010003#64, 0x2000000100009470#64, 0x30FFFFFF00000000#64, 0x6100000000000005#64,
      0x6000000000000105#64].all (fun w => decode w == .error .reservedBits) = true := by decide

/-- V1k. -/
theorem test_decode_send_byte_has_no_reserved_bit :
    decode 0x5FFFFFFFFFFFFFFF#64 = .ok (.sendByte 15 0xFF 65535 65535 65535) := by decide

/-- R52, R54: the first byte is the low one. -/
theorem test_decode_bytes :
    decodeBytes [0x70, 0x94, 0, 0, 0, 0, 0, 0x20] = .ok (.configure 0 38000) ∧
      decodeBytes [0x70, 0x94, 0, 0, 0, 0, 0] = .error .partialWord := by decide

/-- The rows of spec/opcode_table.json. -/
theorem test_table_words :
    decodeTableWord 64 0x1000000000000000 = some (.bind 0 0) ∧
      decodeTableWord 64 0x2000000000000000 = some (.configure 0 0) ∧
      decodeTableWord 64 0x3000000000000000 = some (.mark 0 0) ∧ decodeTableWord 64 0x4000000000000000 = some (.space 0 0) ∧
      decodeTableWord 64 0x5000000000000000 = some (.sendByte 0 0 0 0 0) ∧
      decodeTableWord 64 0x6000000000000000 = some (.reverseBits 0) ∧ decodeTableWord 64 0 = none := by decide

/-! ### The commands -/

/-- V18. -/
theorem test_bind_ok :
    onNext (exec (.bind 0 65535) State.reset) (fun t =>
      t.boundAt 0 && t.pinAt 0 == some 65535 && t.cpc == 1 && t.resp == ⟨0, 0⟩) = true := by decide

/-- V14. -/
theorem test_bind_pin_in_use :
    onNext (exec (.bind 1 3) (boundTo 3)) (fun t =>
      t.resp == ⟨5, 0⟩ && t.errlog == [.pinInUse] && !t.boundAt 1 && t.cpc == 1) = true := by decide

/-- V21d, V21g. -/
theorem test_configure_ok :
    onNext (exec (.configure 0 38000) (boundTo 3)) (fun t =>
      t.dirAt 3 == .out && t.modeAt 2 == .carrier && t.topAt 2 == some 210 && t.cmpAt ⟨2, 1⟩ == some 70 && t.cfgAt 0 &&
        t.resp == ⟨0, 0⟩) = true ∧
      onNext (exec (.configure 1 40000) (cotenants.setEn ⟨1, 0⟩ true)) (fun t =>
        t.topAt 1 == some 200 && t.cmpAt ⟨1, 0⟩ == some 70 && t.cmpAt ⟨1, 1⟩ == some 66 && t.enAt ⟨1, 0⟩ && !t.cfgAt 0 &&
          t.cfgAt 1) = true := by decide

/-- V20e, V20f, V20i, V20j. -/
theorem test_configure_range :
    onNext (exec (.configure 0 31250) (boundTo 3)) (fun t => t.resp == ⟨7, 0⟩ && t.topAt 2 == none) = true ∧
      onNext (exec (.configure 0 31251) (boundTo 3)) (fun t => t.topAt 2 == some 255) = true ∧
      onNext (exec (.configure 0 2666666) (boundTo 9)) (fun t => t.topAt 1 == some 3) = true ∧
      onNext (exec (.configure 0 2666667) (boundTo 9)) (fun t => t.resp == ⟨7, 0⟩) = true := by decide

/-- V30. -/
theorem test_mark_records_event :
    onNext (exec (.mark 0 560) configured) (fun t =>
      t.enAt ⟨2, 1⟩ && t.trace == [⟨2, 0, 3, .mark, 560, .fine, 560⟩] && t.cpc == 3) = true := by decide

/-- V34c. -/
theorem test_mark_unconfigured_faults :
    onNext (exec (.mark 0 1) (boundTo 3)) (fun t =>
      t.fault == some ⟨.notConfigured, 0⟩ && t.cpc == 0 && t.trace == []) = true := by decide

/-- W5. -/
theorem test_space_split :
    onNext (exec (.space 0 16382) configured) (fun t => t.trace == [⟨2, 0, 3, .space, 16382, .fine, 16382⟩]) = true ∧
      onNext (exec (.space 0 16383) configured) (fun t => t.trace == [⟨2, 0, 3, .space, 16383, .coarse, 16⟩]) = true := by decide

/-- V35. -/
theorem test_space_own_channel :
    onNext (exec (.space 1 100) ((cotenants.setEn ⟨1, 0⟩ true).setEn ⟨1, 1⟩ true)) (fun t =>
      t.enAt ⟨1, 0⟩ && !t.enAt ⟨1, 1⟩) = true := by decide

/-- W6. -/
theorem test_sendByte_order :
    onNext (exec (.sendByte 0 0x05 500 501 1500) configured) (fun t =>
      t.trace.map (fun e => e.dur) ==
        [500, 1500, 500, 501, 500, 1500, 500, 501, 500, 501, 500, 501, 500, 501, 500, 501] && !t.enAt ⟨2, 1⟩) = true := by decide

/-- V45. -/
theorem test_sendByte_paths :
    onNext (exec (.sendByte 0 0x01 20000 100 16383) configured) (fun t =>
      (t.trace.take 4).map (fun e => (e.kind, e.path, e.units)) ==
        [(.mark, .coarse, 20), (.space, .coarse, 16), (.mark, .coarse, 20), (.space, .fine, 100)]) = true := by decide

/-- V50. -/
theorem test_reverseBits_data :
    onNext (exec (.reverseBits 0xC4) State.reset) (fun t => t.resp == ⟨0, 0x23⟩ && t.cpc == 1) = true ∧ rev8 0x12 = 0x48 := by decide

/-! ### Steps, ticks and pins -/

theorem test_step_runs_placed_word :
    onNext (step (State.reset.withFetchWord 64 0x60000000000000C4)) (fun t => t.resp == ⟨0, 0x23⟩ && t.cpc == 1) = true := by decide

theorem test_step_reports_illegal_word :
    onNext (step (State.reset.withFetchWord 64 0x7000000000000000)) (fun t =>
      t.resp == ⟨1, 0⟩ && t.errlog == [.illegalCommand] && t.cpc == 1) = true := by decide

/-- V60: the period is 420 ticks. -/
theorem test_tick_wraps :
    onNext (tick 2 (configured.setPhase 2 419)) (fun t => t.phaseAt 2 == 0) = true ∧
      onNext (tick 2 (configured.setPhase 2 418)) (fun t => t.phaseAt 2 == 419) = true := by decide

/-- V60. -/
theorem test_carrier_shape :
    [0, 69, 350, 419].all (fun ph => carrierBit .dual ph 210 70) = true ∧
      [70, 349].any (fun ph => carrierBit .dual ph 210 70) = false := by decide

/-- V61. -/
theorem test_pin_levels :
    (pinOut State.reset 3).toOption = some .z ∧ (pinOut configured 3).toOption = some (.bit false) ∧
      (pinOut (configured.setEn ⟨2, 1⟩ true) 3).toOption = some (.bit true) := by decide

/-! ### The assembler (V2) -/

theorem test_asm_lines :
    assemble (.bind 1 10) = some 0x110000000000000A ∧ assemble (.cfg 1 40000) = some 0x2100000000009C40 ∧
      assemble (.mark 0 560) = some 0x3000000000000230 ∧ assemble (.space 1 560) = some 0x4100000000000230 ∧
      assemble (.sendbyte 0 5 500 500 1500) = some 0x500501F401F405DC ∧
      assemble (.sendbyteMsb 0 0xC4 430 430 1300) = some 0x502301AE01AE0514 ∧
      assemble (.off 0) = some 0x4000000000000000 ∧ assemble (.rev 0xC4) = some 0x60000000000000C4 ∧
      assemble (.word64 0x7000000000000000) = some 0x7000000000000000 := by decide

theorem test_asm_text :
    assembleText
      ['r', 'e', 'v', ' ', '0', 'x', 'C', '4', ' ', ';', ' ', 'x'] = .word 0x60000000000000C4 ∧
      assembleText ['b', 'i', 'n', 'd', ' ', '1', ',', ' ', '1', '0'] = .word 0x110000000000000A := by decide

/-! ### Witnesses: concrete states and operands that meet the hypotheses of the obligations -/

theorem test_configured_is_reached :
    after [.bind 0 3, .configure 0 38000] = configured := by decide

/-- The invariant is met by a configured block. -/
theorem test_configured_inv : configured.Inv := by
  constructor
  case configured =>
    intro h p hc hp
    refine ⟨⟨2, 1⟩, 210, ?_⟩
    simp [configured, State.resetOn, State.cfgAt, State.pinAt, regGet] at hc hp
    obtain ⟨rfl, -⟩ := hc
    simp at hp
    subst hp
    decide
  case running =>
    intro t ht
    simp [configured, State.resetOn, State.modeAt, regGet] at ht
    subst ht
    exact ⟨210, by decide⟩
  case stopped =>
    intro t ht
    have : ¬(2 = t) := fun e => by
      subst e
      simp [configured, State.modeAt, regGet] at ht
    simp [configured, State.resetOn, State.topAt, State.phaseAt, regGet, this]
  case compares =>
    intro ch c hc
    simp [configured, State.resetOn, State.cmpAt, regGet] at hc
    obtain ⟨rfl, rfl⟩ := hc
    decide
  case driven =>
    intro p hp
    simp [configured, State.resetOn, State.dirAt, regGet] at hp
    subst hp
    exact ⟨0, rfl⟩
  case pinsDistinct =>
    intro h h' p hp hp'
    simp [configured, State.resetOn, State.pinAt, regGet] at hp hp'
    omega
  case canonical =>
    unfold State.Canonical configured State.resetOn
    exact ⟨by decide, by decide, by decide, by decide, by decide, by decide, by decide, by decide, by decide,
      ⟨.nil, nofun⟩, by decide, by decide⟩
  case cpcInStream => simp [configured, State.resetOn]
  case boundPin =>
    intro h
    by_cases hh : 0 = h <;> simp [configured, State.boundAt, State.pinAt, regGet, hh]
  case respCode => decide
  case faultHere => exact nofun
  case traced => exact nofun
  all_goals
    simp [configured, State.resetOn, State.boundAt, State.pinAt, State.cfgAt, State.enAt, State.latchAt, regGet,
      Platform.reference]

/-- Every bound handle of these states holds a pin, and every configured one is bound. -/
theorem test_pins_written :
    (∀ p k, (boundTo p).boundAt k = true → ((boundTo p).pinAt k).isSome = true) ∧
      (∀ k, cotenants.boundAt k = true → (cotenants.pinAt k).isSome = true) ∧
      ∀ k, configured.cfgAt k = true → configured.boundAt k = true := by
  refine ⟨fun p k => ?_, fun k => ?_, fun k => ?_⟩
  · by_cases h : 0 = k <;> simp [boundTo, State.boundAt, State.pinAt, regGet, h]
  · by_cases h : 0 = k <;> by_cases h' : 1 = k <;> simp [cotenants, State.boundAt, State.pinAt, regGet, h, h']
  · by_cases h : 0 = k <;> simp [configured, State.boundAt, State.cfgAt, regGet, h]

/-- Each clause of PinsUndrivenUntilConfigured: the block after reset, a step that executes a `BIND`, a `BIND`, and a step that
executes a `CONFIGURE`. -/
theorem test_witness_PinsUndrivenUntilConfigured :
    (withWord 0x1000000000000003 []).Undriven ∧
      (∃ t, step (withWord 0x1000000000000003 []) = .next t ∧
        (withWord 0x1000000000000003 []).executes = some (.bind 0 3)) ∧
      (∃ t, exec (.bind 0 3) (withWord 0x1000000000000003 []) = .next t ∧ t.cpc = 1) ∧
      ∃ t, step { boundTo 3 with stream := [0x2000000000009470] } = .next t ∧
        ((boundTo 3).dirAt 3 = .inp ∧ t.dirAt 3 = .out ∧ (boundTo 3).modeAt 2 = .stopped ∧ t.modeAt 2 = .carrier) :=
  ⟨⟨fun _ => rfl, fun _ => rfl⟩, of_onNext (by decide), of_onNext (by decide), of_onNext (by decide)⟩

theorem test_witness_StepKeepsInvariant :
    configured.Inv ∧ ∃ t, step configured = .next t ∧ t.cpc = 3 := ⟨test_configured_inv, of_onNext (by decide)⟩

theorem test_witness_NoUnwrittenRegisterIsRead :
    configured.Inv ∧ configured.platform.wf = true := ⟨test_configured_inv, by decide⟩

theorem test_witness_UnwrittenReadsFault :
    (0#4).toNat < unwritten.platform.numHandles ∧ unwritten.boundAt 0 = true ∧ unwritten.pinAt 0 = none ∧
      (1#4).toNat < unwritten.platform.numHandles ∧ unwritten.boundAt 1 = false ∧ unwritten.cfgAt 0 = true ∧
      unwritten.modeAt 1 = .carrier ∧ unwritten.topAt 1 = none ∧ unwritten.dirAt 9 = .out ∧
      chanOf unwritten.platform 9 = some ⟨1, 0⟩ ∧ unwritten.enAt ⟨1, 0⟩ = true ∧ unwritten.cmpAt ⟨1, 0⟩ = none ∧
      ({ unwritten with cmp := [(⟨1, 0⟩, some 1)] }).cmpAt ⟨1, 0⟩ = some 1 ∧ unwritten.platform.slope = .dual := by decide

theorem test_witness_IllFormedPlatformIsRefused :
    ({ State.reset with platform := { Platform.reference with numHandles := 17 } }).platform.wf = false ∧
      State.reset.platform.wf = true := by decide

theorem test_witness_WellFormedPlatformMeaning :
    Platform.reference.wf = true ∧ (3#16, ⟨2, 1⟩) ∈ Platform.reference.pinMap ∧ ⟨2, 8, [0, 1]⟩ ∈ Platform.reference.timers := by decide

theorem test_witness_StepRunsDecodedCommand :
    ∃ i, (withWord 0x3000000000000230 []).platform.wf = true ∧ (withWord 0x3000000000000230 []).fault = none ∧
      (withWord 0x3000000000000230 []).stream[0]? = some 0x3000000000000230#64 ∧
      decode 0x3000000000000230 = .ok i ∧ (withWord 0x3000000000000230 [.command, .tick 1]).turns = .command :: [.tick 1] := ⟨.mark 0 560, by decide⟩

theorem test_witness_IllegalWordIsReported :
    [0x0FFFFFFFFFFFFFFF#64, 0x7000000000000000#64, 0xFFFFFFFFFFFFFFFF#64].all
        (fun w => decide ((w >>> 60 = 0 ∨ 7 ≤ (w >>> 60).toNat) ∧ (withWord w []).stream[0]? = some w)) = true ∧
      [0x1000000000010000#64, 0x2000000100000000#64, 0x3080000000000000#64, 0x4000000100000000#64,
        0x6000000000000100#64].all
        (fun w => opTable.any fun r => decide (w >>> 60 = r.pattern >>> 60 ∧ w &&& r.mask ≠ r.pattern)) = true ∧
      (withWord 0 [.command]).turns.head?.getD .command = .command ∧ (withWord 0 []).platform.wf = true ∧
      (withWord 0 []).fault = none := by decide

theorem test_witness_BlockWaitsForTheHost :
    State.reset.platform.wf = true ∧ State.reset.fault = none ∧
      State.reset.turns.head?.getD .command = .command ∧ State.reset.stream.length ≤ State.reset.cpc := by decide

theorem test_witness_FaultedBlockExecutesNothing :
    (faulted []).platform.wf = true ∧ (faulted []).fault ≠ none ∧ (faulted []).turns.head?.getD .command = .command ∧
      (faulted [.tick 2]).turns = .tick 2 :: [] ∧ (faulted [.tick 2]).modeAt 2 = .carrier ∧
      (faulted [.tick 2]).topAt 2 = some 210 := by decide

theorem test_witness_FaultedBlockTicks :
    ∃ t, step (faulted [.tick 2]) = .next t ∧ t.phaseAt 2 = 1 := of_onNext (by decide)

theorem test_witness_TickAdvancesPhase :
    configured.platform.wf = true ∧ (configured.setTurns [.tick 1]).modeAt 1 = .stopped ∧
      (configured.setTurns [.tick 2]).turns = .tick 2 :: [] ∧ (configured.setTurns [.tick 2]).modeAt 2 = .carrier ∧
      (configured.setTurns [.tick 2]).topAt 2 = some 210 ∧ 0 < 210 := by decide

theorem test_witness_TicksRepeatAfterOnePeriod :
    configured.modeAt 2 = .carrier ∧ configured.topAt 2 = some 210 ∧
      (configured.setPhase 2 419).phaseAt 2 < slopeTicks configured.platform.slope * 210 := by decide

theorem test_witness_EncodeOfDecode_DecodeFollowsOpcodeMap :
    decode 0x2F000000FFFFFFFF = .ok (.configure 15 4294967295) := by decide

theorem test_witness_TransportIsLittleEndian :
    ([] : List Byte).length ≠ 8 ∧ (List.replicate 7 (0 : Byte)).length ≠ 8 ∧ (List.replicate 9 (0 : Byte)).length ≠ 8 := by decide

theorem test_witness_BindMeaning :
    (∀ k, (boundTo 3).boundAt k = true → ((boundTo 3).pinAt k).isSome = true) ∧
      (boundTo 3).platform.numHandles ≤ (2#4).toNat ∧
      ((0#4).toNat < (boundTo 3).platform.numHandles ∧ (boundTo 3).boundAt (0#4).toNat = true) ∧
      ((1#4).toNat < (boundTo 3).platform.numHandles ∧ (boundTo 3).boundAt (1#4).toNat = false ∧
        (∃ k < (boundTo 3).platform.numHandles, (boundTo 3).boundAt k = true ∧ (boundTo 3).pinAt k = some 3) ∧
        ∀ k < (boundTo 3).platform.numHandles, (boundTo 3).boundAt k = true → (boundTo 3).pinAt k ≠ some 9) := ⟨test_pins_written.1 3, by decide, by decide, by decide, by decide, ⟨0, by decide⟩, by decide⟩

theorem test_witness_ConfigureMeaning :
    (∀ k, cotenants.boundAt k = true → (cotenants.pinAt k).isSome = true) ∧
      cotenants.platform.numHandles ≤ (2#4).toNat ∧
      ((1#4).toNat < (boundTo 5).platform.numHandles ∧ (boundTo 5).boundAt (1#4).toNat = false) ∧
      ((boundTo 5).boundAt (0#4).toNat = true ∧ (boundTo 5).pinAt (0#4).toNat = some 5 ∧
        chanOf (boundTo 5).platform 5 = none) ∧
      ((boundTo 3).pinAt (0#4).toNat = some 3 ∧ chanOf (boundTo 3).platform 3 = some ⟨2, 1⟩ ∧
        ¬(16000000 / (slopeTicks (boundTo 3).platform.slope * (31250#32).toNat) ≤
          2 ^ timerWidth (boundTo 3).platform 2 - 1) ∧
        16000000 / (slopeTicks (boundTo 3).platform.slope * (31251#32).toNat) ≤
          2 ^ timerWidth (boundTo 3).platform 2 - 1 ∧
        3 ≤ 16000000 / (slopeTicks (boundTo 3).platform.slope * (2666666#32).toNat)) ∧
      (cotenants.boundAt (1#4).toNat = true ∧ cotenants.pinAt (1#4).toNat = some 10 ∧
        chanOf cotenants.platform 10 = some ⟨1, 1⟩ ∧ 0 ≠ (1#4).toNat ∧ cotenants.boundAt 0 = true ∧
        cotenants.pinAt 0 = some 9 ∧ chanOf cotenants.platform 9 = some ⟨1, 0⟩) := ⟨test_pins_written.2.1, by decide⟩

/-- The gating commands: each clause of their statements (MarkMeaning, SpaceMeaning, SendByteMeaning), and the statements
about a command that passes its checks (SendByteIsItsPairs, ReversedByteGoesOutMsbFirst, GateIsIdempotent). -/
theorem test_witness_gating :
    configured.platform.numHandles ≤ (2#4).toNat ∧
      ((1#4).toNat < configured.platform.numHandles ∧ configured.boundAt (1#4).toNat = false) ∧
      ((0#4).toNat < (boundTo 3).platform.numHandles ∧ (boundTo 3).boundAt (0#4).toNat = true ∧
        (boundTo 3).cfgAt (0#4).toNat = false) ∧
      (0#4).toNat < configured.platform.numHandles ∧ configured.boundAt (0#4).toNat = true ∧
      configured.cfgAt (0#4).toNat = true ∧ configured.pinAt (0#4).toNat = some 3 ∧
      chanOf configured.platform 3 = some ⟨2, 1⟩ := by decide

theorem test_witness_BadHandleIsReported_NotBoundIsReported_UnconfiguredGateFaults :
    handleOf (.configure 2 0) = some 2 ∧ State.reset.platform.numHandles ≤ (2#4).toNat ∧
      handleOf (.mark 1 0) = some 1 ∧ (1#4).toNat < State.reset.platform.numHandles ∧ State.reset.boundAt 1 = false ∧
      isGating (.mark 0 1) = true ∧ handleOf (.mark 0 1) = some 0 ∧ (boundTo 3).boundAt (0#4).toNat = true ∧
      (boundTo 3).cfgAt (0#4).toNat = false := by decide

theorem test_witness_NotBoundIsReported_not_a_bind :
    ∀ k p, Instr.mark 1 0 ≠ .bind k p := by simp

theorem test_witness_UnmappedGateStops :
    isGating (.space 0 1) = true ∧ handleOf (.space 0 1) = some 0 ∧
      (0#4).toNat < (boundTo 5).platform.numHandles ∧ (boundTo 5).boundAt (0#4).toNat = true ∧
      ({ boundTo 5 with cfg := [(0, true)] }).cfgAt (0#4).toNat = true ∧ (boundTo 5).pinAt (0#4).toNat = some 5 ∧
      chanOf (boundTo 5).platform 5 = none := by decide

theorem test_witness_CommandEndsInOneOfThreeWays :
    (∃ t, exec (.mark 0 1) configured = .next t ∧ t.cpc = 3) ∧
      (∃ t, exec (.mark 2 1) configured = .next t ∧ t.resp.status = 2) ∧
      ∃ t, exec (.mark 0 1) (boundTo 3) = .next t ∧ t.fault ≠ none := ⟨of_onNext (by decide), of_onNext (by decide), of_onNext (by decide)⟩

theorem test_witness_ConfigureLeavesPinLow_ConfiguredCarrier :
    (boundTo 3).pinAt (0#4).toNat = some 3 ∧ chanOf (boundTo 3).platform 3 = some ⟨2, 1⟩ ∧
      ∃ t, exec (.configure 0 38000) (boundTo 3) = .next t ∧ t.resp.status = 0 := ⟨by decide, by decide, of_onNext (by decide)⟩

theorem test_witness_CotenantIsInvalidated :
    (∃ t, exec (.configure 1 40000) (cotenants.setEn ⟨1, 0⟩ true) = .next t ∧ t.resp.status = 0) ∧ (0#4) ≠ 1#4 ∧
      (0#4).toNat < cotenants.platform.numHandles ∧ cotenants.boundAt (0#4).toNat = true ∧
      cotenants.pinAt (1#4).toNat = some 10 ∧ chanOf cotenants.platform 10 = some ⟨1, 1⟩ ∧
      cotenants.pinAt (0#4).toNat = some 9 ∧ chanOf cotenants.platform 9 = some ⟨1, 0⟩ ∧
      (cotenants.setEn ⟨1, 0⟩ true).enAt ⟨1, 0⟩ = true ∧ cotenants.dirAt 9 = .out ∧ cotenants.cmpAt ⟨1, 0⟩ = some 70 ∧
      isGating (.mark 0 560) = true ∧ handleOf (.mark 0 560) = some 0 := ⟨of_onNext (by decide), by decide⟩

theorem test_witness_CotenantIsInvalidated_commands_after :
    (∀ g, Instr.configure 0 g ∉ [Instr.configure 1 38000, .mark 1 5]) ∧
      ∃ u, execAll [.configure 1 38000, .mark 1 5] cotenants = .next u ∧ u.cpc = 2 := ⟨by simp, of_onNext (by decide)⟩

theorem test_witness_pin_levels :
    configured.Inv ∧ configured.cfgAt (0#4).toNat = true ∧ configured.pinAt (0#4).toNat = some 3 := ⟨test_configured_inv, by decide⟩

theorem test_witness_SendByteOrder :
    ∃ t, exec (.sendByte 0 5 500 500 1500) configured = .next t ∧
      (t.resp.status = 0 ∧ t.fault = configured.fault ∧ t.cpc = configured.cpc + 1) := of_onNext (by decide)

theorem test_witness_OnlyOwnChannelIsGated :
    ∃ t, exec (.mark 0 1) configured = .next t ∧ t.enAt ⟨2, 1⟩ ≠ configured.enAt ⟨2, 1⟩ := of_onNext (by decide)

/-- The hypotheses of EnableFollowsLastGate. -/
theorem test_witness_EnableFollowsLastGate :
    configured.Inv ∧ EnMatches configured (fun _ => none) ∧ ∃ t, step configured = .next t ∧ t.cpc = 3 := by
  refine ⟨test_configured_inv, fun h p ch _ _ _ => ?_, of_onNext (by decide)⟩
  exact rfl

theorem test_witness_PinIsImmutable :
    (∃ t, step configured = .next t ∧ configured.boundAt 0 = true) ∧
      ∃ t, step (withWord 0x1000000000000003 []) = .next t ∧
        ((withWord 0x1000000000000003 []).boundAt 0 = false ∧ t.boundAt 0 = true) := ⟨of_onNext (by decide), of_onNext (by decide)⟩

/-- The statements about every step: CpcAdvancesByOne, ErrlogOnlyGrows, TraceOnlyAppends, StreamAndPlatformAreConstant, and
both clauses of RespAfterRetirement. -/
theorem test_witness_steps :
    (∃ t, step (withWord 0x6000000000000005 []) = .next t ∧
        (t.cpc = (withWord 0x6000000000000005 []).cpc + 1 ∧
          (withWord 0x6000000000000005 []).executes = some (.reverseBits 5))) ∧
      ∃ t, step (withWord 0x1000000000000003 []) = .next t ∧
        (t.cpc = (withWord 0x1000000000000003 []).cpc + 1 ∧
          (withWord 0x1000000000000003 []).executes = some (.bind 0 3)) := ⟨of_onNext (by decide), of_onNext (by decide)⟩

theorem test_witness_OnlyListedCommandsWrite :
    (∀ k, configured.cfgAt k = true → configured.boundAt k = true) ∧
      (∃ t, exec (.bind 1 9) configured = .next t ∧ t.bound ≠ configured.bound) ∧
      (∃ t, exec (.configure 0 40000) configured = .next t ∧ t.top ≠ configured.top) ∧
      ∃ t, exec (.mark 0 1) configured = .next t ∧ (t.en ≠ configured.en ∧ t.trace ≠ configured.trace) := ⟨test_pins_written.2.2, of_onNext (by decide), of_onNext (by decide), of_onNext (by decide)⟩

theorem test_witness_CommandsDoNotReadPhase :
    SameButObserved configured (configured.setPhase 2 7) ∧ (∃ t, exec (.mark 0 1) configured = .next t ∧ t.cpc = 3) ∧
      exec (.mark 0 1) unwritten = .fault .unwrittenPin := ⟨rfl, of_onNext (by decide), rfl⟩

theorem test_witness_TicksCommuteWithCommands :
    (∀ h f, Instr.mark 0 1 ≠ .configure h f) ∧ (∃ t, exec (.mark 0 1) configured = .next t ∧ t.cpc = 3) ∧
      ∃ t, tick 2 configured = .next t ∧ t.phaseAt 2 = 1 := ⟨by simp, of_onNext (by decide), of_onNext (by decide)⟩

theorem test_witness_RunEndsWellOrBad_BootSequenceEmits :
    Platform.reference.wf = true ∧ (0#4).toNat < Platform.reference.numHandles ∧
      chanOf Platform.reference 3 = some ⟨2, 1⟩ ∧ freqOk Platform.reference 2 (38000#32).toNat = true := by decide

theorem test_witness_BootSequenceEmitsUnderEveryInterleaving :
    Platform.reference.wf = true ∧ (0#4).toNat < Platform.reference.numHandles ∧
      chanOf Platform.reference 3 = some ⟨2, 1⟩ ∧ freqOk Platform.reference 2 (38000#32).toNat = true ∧
      [Turn.tick 2, .command, .tick 1, .command, .tick 2, .command, .tick 2].count .command = 3 := by decide

theorem test_witness_assembler :
    (AsmLine.bind 16 0).wf = false ∧ 15 < 16 ∧ 65535 < 65536 ∧ 4294967295 < 2 ^ 32 ∧ 16 ≤ 16 ∧ 256 ≤ 256 ∧ 65536 ≤ 65536 ∧
      2 ^ 32 ≤ 4294967296 ∧ 2 ^ 64 ≤ 18446744073709551616 := by decide

end Sys2Proof.Machine
end

section
/-! PROOFS. The family 10_state: what every step does to `cpc`, `RESP`, `ERRLOG` and `TRACE` (R22, R35, R36, R38). A step
either keeps the first three or is the retirement of one command; both facts are proved once, and each obligation reads
its clauses off them. -/

namespace Sys2Proof.Machine

/-! ### Retirement -/

/-- Distinct status codes have distinct numbers (R161): the code is the position in `allStatus`. -/
theorem statusCode_injective : Function.Injective statusCode := by
  have hl : Function.LeftInverse (fun c : BitVec 4 => allStatus.getD c.toNat .ok) statusCode := by
    intro e
    cases e <;> rfl
  exact hl.injective

/-- What the retirement with status `e` and data `v` of the command `c` (`none`: an illegal word) does to `cpc`, `FAULT`,
`RESP` and `ERRLOG` (R171), and which data that is: the reversed byte of a `REVERSE_BITS`, else 0 (R35). -/
structure Retires (c : Option Instr) (e : Status) (v : Byte) (s t : State) : Prop where
  cpc : t.cpc = s.cpc + 1
  fault : t.fault = s.fault
  resp : t.resp = respOf e v
  errlog : ∀ x, x ∈ t.errlog ↔ x ∈ s.errlog ∨ x = e ∧ e ≠ .ok
  plain : (∀ b, c ≠ some (.reverseBits b)) → v = 0
  reversed : ∀ b, c = some (.reverseBits b) → e = .ok ∧ v = rev8 b

/-- The step retires no command: nothing that a retirement writes has changed. -/
structure KeepsBooks (s t : State) : Prop where
  cpc : t.cpc = s.cpc
  resp : t.resp = s.resp
  errlog : t.errlog = s.errlog

theorem Retires.cpc_ne {c : Option Instr} {e : Status} {v : Byte} {s t : State} (h : Retires c e v s t) :
    t.cpc ≠ s.cpc :=
  h.cpc.trans_ne (Nat.succ_ne_self _)

theorem KeepsBooks.cpc_ne_succ {s t : State} (h : KeepsBooks s t) : t.cpc ≠ s.cpc + 1 :=
  h.cpc.trans_ne (Nat.succ_ne_self _).symm

/-- A reported error is a retirement of any command but `REVERSE_BITS`. -/
theorem retires_reported {c : Option Instr} (hc : ∀ b, c ≠ some (.reverseBits b)) {e : Status} (he : e ≠ .ok)
    (s : State) : Retires c e 0 s (retireWith e 0 s) where
  cpc := rfl
  fault := rfl
  resp := rfl
  errlog x := by simp [he, mem_logWith]
  plain _ := rfl
  reversed b hb := absurd hb (hc b)

/-- A command other than `REVERSE_BITS` retires OK after a transition to `u` that leaves `cpc`, `FAULT` and `ERRLOG`. -/
theorem retires_ok {c : Option Instr} (hc : ∀ b, c ≠ some (.reverseBits b)) {s u : State} (hcpc : u.cpc = s.cpc)
    (hfault : u.fault = s.fault) (hlog : u.errlog = s.errlog) : Retires c .ok 0 s (retireWith .ok 0 u) where
  cpc := congrArg (· + 1) hcpc
  fault := hfault
  resp := rfl
  errlog x := by simp [hlog]
  plain _ := rfl
  reversed b hb := absurd hb (hc b)

theorem retires_reverseBits (b : Byte) (s : State) :
    Retires (some (.reverseBits b)) .ok (rev8 b) s (retireWith .ok (rev8 b) s) where
  cpc := rfl
  fault := rfl
  resp := rfl
  errlog x := by simp
  plain hb := absurd rfl (hb b)
  reversed b' hb := by cases hb; exact ⟨rfl, rfl⟩

/-- A command that answers a next state either enters the faulted state or retires (R160). -/
theorem Ends.raises_or_retires {i : Instr} {s t : State} (h : Ends s i t) :
    t = raise .notConfigured s ∨ ∃ e v, Retires (some i) e v s t := by
  cases h with
  | reported _ e he hr => exact .inr ⟨e, 0, retires_reported (by simpa using hr) he s⟩
  | raisedMark => exact .inl rfl
  | raisedSpace => exact .inl rfl
  | raisedSendByte => exact .inl rfl
  | bound => exact .inr ⟨_, _, retires_ok (by simp) (by simp) (by simp) (by simp)⟩
  | configured => exact .inr ⟨_, _, retires_ok (by simp) (by simp) (by simp) (by simp)⟩
  | marked => exact .inr ⟨_, _, retires_ok (by simp) (by simp) (by simp) (by simp)⟩
  | spaced => exact .inr ⟨_, _, retires_ok (by simp) (by simp) (by simp) (by simp)⟩
  | sent => exact .inr ⟨_, _, retires_ok (by simp) (by simp) (by simp) (by simp)⟩
  | reversed b => exact .inr ⟨_, _, retires_reverseBits b s⟩

/-! ### The two kinds of step -/

/-- The next step is the sequencer's on a word of the host: it has the turn, the block is not faulted, and the word at
`cpc` is there. -/
def CommandReady (s : State) : Prop :=
  s.turns.head?.getD .command = .command ∧ s.fault = none ∧ s.cpc < s.stream.length

theorem lt_length_of_fetch {s : State} {w : Word} (hw : fetch s = some w) : s.cpc < s.stream.length :=
  (List.getElem?_eq_some_iff.mp hw).1

theorem length_le_of_fetch {s : State} (hw : fetch s = none) : s.stream.length ≤ s.cpc :=
  List.getElem?_eq_none_iff.mp hw

theorem not_commandReady_of_tick {s : State} {k : Nat} {ts : List Turn} (hh : s.turns = .tick k :: ts) :
    ¬CommandReady s := by
  simp [CommandReady, hh]

theorem not_commandReady_of_wait {s : State} (hw : fetch s = none) : ¬CommandReady s :=
  fun ⟨_, _, hlt⟩ => absurd hlt (Nat.not_lt.mpr (length_le_of_fetch hw))

/-- A step keeps `cpc`, `RESP` and `ERRLOG`, and then no command was ready or the block is faulted after it; or it retires
the command that was ready. -/
theorem step_keeps_or_retires {s t : State} (h : step s = .next t) :
    (KeepsBooks s t ∧ (CommandReady s → t.fault ≠ none)) ∨
      CommandReady s ∧ ∃ e v, Retires s.executes e v s t := by
  obtain ⟨_, hs⟩ := step_steps h
  cases hs with
  | idleTick k hh => exact .inl ⟨⟨rfl, rfl, rfl⟩, fun hr => absurd hr (not_commandReady_of_tick hh)⟩
  | ticked k top hh => exact .inl ⟨⟨rfl, rfl, rfl⟩, fun hr => absurd hr (not_commandReady_of_tick hh)⟩
  | waits _ _ hw => exact .inl ⟨⟨rfl, rfl, rfl⟩, fun hr => absurd hr (not_commandReady_of_wait hw)⟩
  | illegal w r hh hf hw hd =>
    obtain ⟨hcpc, hfault, hresp, hlog, hplain, hrev⟩ :=
      retires_reported (c := none) (by simp) (e := .illegalCommand) (by simp) (s.setTurns (turnsLeft s))
    rw [executes_of_illegal hh hf hw hd]
    exact .inr ⟨⟨hh, hf, lt_length_of_fetch hw⟩, _, _, hcpc, hfault, hresp, hlog, hplain, hrev⟩
  | executed w i _ hh hf hw hd he =>
    rw [executes_of_command hh hf hw hd]
    rcases he.raises_or_retires with rfl | ⟨e, v, hcpc, hfault, hresp, hlog, hplain, hrev⟩
    · exact .inl ⟨⟨rfl, rfl, rfl⟩, fun _ => by simp⟩
    · exact .inr ⟨⟨hh, hf, lt_length_of_fetch hw⟩, e, v, hcpc, hfault, hresp, hlog, hplain, hrev⟩

/-! ### The events that a step appends -/

/-- The events of the gates `gs` of handle `h` on pin `p`, by the command of index `idx` (R120). -/
def gateEvents (idx h : Nat) (p : PinId) (gs : List (WaitKind × Nat)) : List Event :=
  gs.map fun g => waitEvent idx h p g.1 g.2

/-- What a command appends to `TRACE`: nothing, or events of a gating command on the pin of its handle (R38). -/
theorem Ends.trace_cases {i : Instr} {s t : State} (he : Ends s i t) :
    t.trace = s.trace ∨
      ∃ h p gs, isGating i = true ∧ handleOf i = some h ∧ s.pinAt h.toNat = some p ∧
        t.trace = s.trace ++ gateEvents s.cpc h.toNat p gs := by
  cases he with
  | reported => exact .inl rfl
  | raisedMark => exact .inl rfl
  | raisedSpace => exact .inl rfl
  | raisedSendByte => exact .inl rfl
  | bound => exact .inl (by simp)
  | configured => exact .inl (by simp)
  | marked h d p ch hp => exact .inr ⟨h, p, [(.mark, d.toNat)], rfl, rfl, hp.pin, rfl⟩
  | spaced h d p ch hp => exact .inr ⟨h, p, [(.space, d.toNat)], rfl, rfl, hp.pin, rfl⟩
  | sent h v m z o p ch hp => exact .inr ⟨h, p, _, rfl, rfl, hp.pin, gates_trace h.toNat p ch _ s⟩
  | reversed => exact .inl rfl

/-- What a step appends to `TRACE`: nothing, or the events of the gating command that it executes. -/
theorem step_trace_cases {s t : State} (hst : step s = .next t) :
    t.trace = s.trace ∨
      ∃ i h p gs, s.executes = some i ∧ isGating i = true ∧ handleOf i = some h ∧ s.pinAt h.toNat = some p ∧
        t.trace = s.trace ++ gateEvents s.cpc h.toNat p gs := by
  obtain ⟨_, hs⟩ := step_steps hst
  cases hs with
  | idleTick => exact .inl rfl
  | ticked => exact .inl rfl
  | waits => exact .inl rfl
  | illegal => exact .inl rfl
  | executed w i _ hh hf hw hd he =>
    rcases he.trace_cases with ht | ⟨h, p, gs, hg, hi, hp, ht⟩
    · exact .inl ht
    · exact .inr ⟨i, h, p, gs, executes_of_command hh hf hw hd, hg, hi, hp, ht⟩

/-- The units of a wait are those of its path: µs on the fine one, ms on the coarse one (R120). -/
theorem waitUnits_eq (d : Nat) : waitUnits d = (match waitPath d with | .fine => d | .coarse => d / 1000) := by
  unfold waitUnits waitPath
  split <;> rfl

/-! ### The obligations -/

/-- Settles O47: a step that keeps `cpc` had no command ready or ends faulted; a retirement is of a ready command and
leaves `FAULT` unset. -/
theorem cpcAdvancesByOne : Obligations.CpcAdvancesByOne := by
  refine ⟨State.resetOn_cpc, fun s t h => ?_⟩
  rcases step_keeps_or_retires h with ⟨hk, hready⟩ | ⟨⟨hh, hf, hlt⟩, e, v, hr⟩
  · exact ⟨.inl hk.cpc, fun hc => absurd hc hk.cpc_ne_succ, fun ⟨hh, hf, hlt, ht⟩ => absurd ht (hready ⟨hh, hf, hlt⟩)⟩
  · exact ⟨.inr hr.cpc, fun _ => ⟨hh, hf, hlt, hr.fault.trans hf⟩, fun _ => hr.cpc⟩

/-- Settles O48: a retirement with status `e` adds `e` alone, and only when it is an error. -/
theorem errlogOnlyGrows : Obligations.ErrlogOnlyGrows := by
  refine ⟨State.resetOn_errlog, fun s t h => ?_⟩
  rcases step_keeps_or_retires h with ⟨hk, _⟩ | ⟨_, e, v, hr⟩
  · rw [hk.errlog]
    exact ⟨fun _ hx => hx, fun _ hx => .inl hx, fun _ _ hc => absurd hc hk.cpc_ne_succ⟩
  · refine ⟨fun x hx => (hr.errlog x).mpr (.inl hx), fun x hx => ?_, fun x hx _ hst => ?_⟩
    · rcases (hr.errlog x).mp hx with hx | ⟨rfl, he⟩
      · exact .inl hx
      · exact .inr ⟨he, by simp [hr.resp, respOf, he], hr.cpc⟩
    · rw [hr.resp, respOf_status] at hst
      obtain rfl := statusCode_injective hst
      exact (hr.errlog e).mpr (.inr ⟨rfl, hx⟩)

/-- Settles O49: the new events are those of the gates of the command that the step executes. -/
theorem traceOnlyAppends : Obligations.TraceOnlyAppends := by
  refine ⟨State.resetOn_trace, fun s t hst => ?_⟩
  rcases step_trace_cases hst with ht | ⟨i, h, p, gs, hx, hg, hi, hp, ht⟩
  · exact ⟨[], by simp [ht], by simp⟩
  · refine ⟨_, ht, fun e he => ?_⟩
    obtain ⟨g, _, rfl⟩ := List.mem_map.mp he
    exact ⟨rfl, hp, waitUnits_eq g.2, i, h, hx, hg, hi, rfl⟩

/-- Settles O50: a retirement answers `respOf e v`, whose data is 0 for every command but `REVERSE_BITS`. -/
theorem respAfterRetirement : Obligations.RespAfterRetirement := by
  refine ⟨State.resetOn_resp, fun s t h => ?_⟩
  rcases step_keeps_or_retires h with ⟨hk, _⟩ | ⟨_, e, v, hr⟩
  · exact ⟨fun _ => hk.resp, fun hc => absurd hc hk.cpc_ne_succ⟩
  · refine ⟨fun hc => absurd hc hr.cpc_ne, fun _ => ⟨⟨e, by simp [hr.resp], ?_⟩, fun hb => ?_, fun b hb => ?_⟩⟩
    · by_cases he : e = .ok
      · exact .inl he
      · exact .inr ((hr.errlog e).mpr (.inr ⟨rfl, he⟩))
    · rw [hr.resp, hr.plain hb, respOf_zero]
    · obtain ⟨rfl, rfl⟩ := hr.reversed b hb
      rw [hr.resp, respOf_ok]

end Sys2Proof.Machine
end

section
/-! PROOFS. The family 20_memory: the transport of a word as bytes (R52, R54), and that no step writes the host's command
stream or the platform (R61, R6). -/

namespace Sys2Proof

/-! ### The transport -/

@[simp] theorem length_bytesOfWord (w : Word) : (bytesOfWord w).length = 8 := by simp [bytesOfWord]

/-- Byte `k` of a word is digit `k` of its number in base 256. -/
theorem byteOfWord_eq_ofNat (w : Word) (k : Nat) : byteOfWord w k = BitVec.ofNat 8 (w.toNat / 2 ^ (8 * k)) :=
  bits_eq (BitVec.toNat_ofNat _ _).symm

theorem byteOfWord_toNat (w : Word) (k : Nat) : (byteOfWord w k).toNat = w.toNat / 2 ^ (8 * k) % 2 ^ 8 :=
  bits_toNat w (8 * k) 8

theorem getElem?_bytesOfWord (w : Word) {k : Nat} (hk : k < 8) : (bytesOfWord w)[k]? = some (byteOfWord w k) := by
  simp [bytesOfWord, hk]

/-- Bytes `k` to `k + n - 1` of a word stand for its bits `[8(k + n) - 1 : 8k]`. -/
theorem littleEndian_bytes (w : Word) (k n : Nat) :
    littleEndian ((List.range' k n).map (byteOfWord w)) = w.toNat / 2 ^ (8 * k) % 2 ^ (8 * n) := by
  induction n generalizing k with
  | zero => simp [littleEndian, Nat.mod_one]
  | succ n ih =>
    have hdiv : w.toNat / 2 ^ (8 * (k + 1)) = w.toNat / 2 ^ (8 * k) / 2 ^ 8 := by
      rw [Nat.div_div_eq_div_mul, ← Nat.pow_add, Nat.mul_succ]
    have hpow : 2 ^ (8 * (n + 1)) = 2 ^ 8 * 2 ^ (8 * n) := by rw [← Nat.pow_add, Nat.mul_succ, Nat.add_comm]
    rw [List.range'_succ, List.map_cons, littleEndian, ih, byteOfWord_toNat, hdiv, hpow, Nat.mod_mul,
      show (256 : Nat) = 2 ^ 8 from rfl]

/-- The bytes of a word carry that word. -/
theorem wordOfBytes_bytesOfWord (w : Word) : wordOfBytes (bytesOfWord w) = some w := by
  have hn : littleEndian (bytesOfWord w) = w.toNat := by
    rw [bytesOfWord, List.range_eq_range', littleEndian_bytes, Nat.mul_zero, Nat.pow_zero, Nat.div_one,
      Nat.mod_eq_of_lt w.isLt]
  rw [wordOfBytes, if_pos (length_bytesOfWord w), hn, BitVec.ofNat_toNat, BitVec.setWidth_eq]

theorem decodeBytes_bytesOfWord (w : Word) : decodeBytes (bytesOfWord w) = decode w := by
  rw [decodeBytes, wordOfBytes_bytesOfWord]

/-- Any other number of bytes carries no word (R54). -/
theorem decodeBytes_partial {bs : List Byte} (h : bs.length ≠ 8) : decodeBytes bs = .error .partialWord := by
  rw [decodeBytes, wordOfBytes, if_neg h]

end Sys2Proof

namespace Sys2Proof.Machine

/-- Settles O20: byte `k` is digit `k` of the word in base 256, and eight digits give the word back. -/
theorem transportIsLittleEndian : Obligations.TransportIsLittleEndian :=
  ⟨fun w => ⟨decodeBytes_bytesOfWord w, length_bytesOfWord w, fun k hk =>
    (getElem?_bytesOfWord w hk).trans (congrArg some (byteOfWord_eq_ofNat w k))⟩, fun _ h => decodeBytes_partial h⟩

/-! ### What lies outside the commands' reach -/

/-- No command writes the platform, the stream or the interleaving. -/
theorem Ends.sameOutside {i : Instr} {s t : State} (h : Ends s i t) : SameOutside s t := by
  cases h with
  | reported => exact ⟨rfl, rfl, rfl⟩
  | raisedMark => exact ⟨rfl, rfl, rfl⟩
  | raisedSpace => exact ⟨rfl, rfl, rfl⟩
  | raisedSendByte => exact ⟨rfl, rfl, rfl⟩
  | bound => exact ⟨rfl, rfl, rfl⟩
  | configured => simp [SameOutside]
  | marked => exact ⟨rfl, rfl, rfl⟩
  | spaced => exact ⟨rfl, rfl, rfl⟩
  | sent => simp [SameOutside]
  | reversed => exact ⟨rfl, rfl, rfl⟩

/-- A step takes its turn from the interleaving and writes nothing else outside the block. -/
theorem Steps.sameOutside {s t : State} (h : Steps s t) : SameOutside (s.setTurns (turnsLeft s)) t := by
  cases h with
  | idleTick => exact ⟨rfl, rfl, rfl⟩
  | ticked => exact ⟨rfl, rfl, rfl⟩
  | waits => exact ⟨rfl, rfl, rfl⟩
  | illegal => exact ⟨rfl, rfl, rfl⟩
  | executed _ _ _ _ _ _ _ he => exact he.sameOutside

/-- Settles O51: of what lies outside the block, a step changes the interleaving alone. -/
theorem streamAndPlatformAreConstant : Obligations.StreamAndPlatformAreConstant := by
  intro s t h
  obtain ⟨hplatform, hstream, _⟩ := (step_steps h).2.sameOutside
  exact ⟨hstream, hplatform⟩

end Sys2Proof.Machine
end

section
/-! PROOFS. The family 30_encoding: a word selects a row of the opcode map by its opcode and its reserved bits (R78), what
the decoder makes of that (R79 to R82), the report of an illegal word (R162), and the pseudo-instructions (R84 to R86). -/

namespace Sys2Proof

/-! ### Fields put in their place -/

/-- The word that holds `x` at bits `[lo + len - 1 : lo]` and 0 elsewhere. -/
def placed (lo : Nat) {len : Nat} (x : BitVec len) : Word := x.setWidth 64 <<< lo

theorem placed_getLsbD (lo : Nat) {len : Nat} (x : BitVec len) (i : Nat) :
    (placed lo x).getLsbD i = (decide (i < 64) && decide (lo ≤ i) && x.getLsbD (i - lo)) := by
  rw [Bool.eq_iff_iff]
  simpa [placed] using fun (hi : i < 64) _ _ => (Nat.sub_le i lo).trans_lt hi

theorem placed_zero (lo len : Nat) : placed lo (0 : BitVec len) = 0#64 := by simp [placed]

/-- The mask of a field keeps that field in its place and clears the rest. -/
theorem and_placed_allOnes (w : Word) (lo len : Nat) :
    w &&& placed lo (BitVec.allOnes len) = placed lo (bits w lo len) := by
  apply BitVec.eq_of_getLsbD_eq
  intro i hi
  rw [BitVec.getLsbD_and, placed_getLsbD, placed_getLsbD, bits_getLsbD, BitVec.getLsbD_allOnes]
  by_cases hlo : lo ≤ i
  · simp [hi, hlo, Bool.and_comm]
  · simp [hlo]

/-- The opcode field of a word that holds `k` there and some field below it. -/
theorem opField_placed_or {lo len : Nat} (h : lo + len ≤ 60) (k : BitVec 4) (x : BitVec len) :
    opField (placed 60 k ||| placed lo x) = k := by
  apply BitVec.eq_of_getLsbD_eq
  intro i hi
  rw [opField, bits_getLsbD, BitVec.getLsbD_or, placed_getLsbD, placed_getLsbD,
    BitVec.getLsbD_of_ge x (60 + i - lo) (by omega)]
  simp [hi, show 60 + i < 64 by omega]

/-- The field below the opcode of such a word. -/
theorem bits_placed_or {lo len : Nat} (h : lo + len ≤ 60) (k : BitVec 4) (x : BitVec len) :
    bits (placed 60 k ||| placed lo x) lo len = x := by
  apply BitVec.eq_of_getLsbD_eq
  intro i hi
  rw [bits_getLsbD, BitVec.getLsbD_or, placed_getLsbD, placed_getLsbD]
  simp [hi, show lo + i < 64 by omega, show ¬60 ≤ lo + i by omega]

/-- Two words that hold an opcode and a field below it are equal exactly when both fields are. -/
theorem placed_or_inj {lo len : Nat} (h : lo + len ≤ 60) {k k' : BitVec 4} {x x' : BitVec len} :
    placed 60 k ||| placed lo x = placed 60 k' ||| placed lo x' ↔ k = k' ∧ x = x' := by
  refine ⟨fun he => ⟨?_, ?_⟩, fun ⟨hk, hx⟩ => by rw [hk, hx]⟩
  · rw [← opField_placed_or h k x, he, opField_placed_or h]
  · rw [← bits_placed_or h k x, he, bits_placed_or h]

/-! ### The rows of the opcode map -/

/-- The row asks for opcode `k` and for a 0 in every bit of the field `[lo + len - 1 : lo]`, and looks at no other bit. -/
structure RowFormat (r : OpRow) (k : BitVec 4) (lo len : Nat) : Prop where
  below : lo + len ≤ 60
  mask : r.mask = placed 60 (BitVec.allOnes 4) ||| placed lo (BitVec.allOnes len)
  pattern : r.pattern = placed 60 k

theorem RowFormat.selects_iff {r : OpRow} {k : BitVec 4} {lo len : Nat} (h : RowFormat r k lo len) (w : Word) :
    r.selects w = true ↔ opField w = k ∧ bits w lo len = 0 := by
  have hmask : w &&& r.mask = placed 60 (opField w) ||| placed lo (bits w lo len) := by
    rw [h.mask, BitVec.and_or_distrib_left, and_placed_allOnes, and_placed_allOnes, opField]
  have hpattern : r.pattern = placed 60 k ||| placed lo (0 : BitVec len) := by
    rw [h.pattern, placed_zero, BitVec.or_zero]
  rw [OpRow.selects, beq_iff_eq, hmask, hpattern, placed_or_inj h.below]

theorem rowFormat_bind (h : HandleField) (p : PinId) : RowFormat (opRow (.bind h p)) 1 16 40 := ⟨by decide, rfl, rfl⟩

theorem rowFormat_configure (h : HandleField) (f : BitVec 32) : RowFormat (opRow (.configure h f)) 2 32 24 :=
  ⟨by decide, rfl, rfl⟩

theorem rowFormat_mark (h : HandleField) (d : BitVec 32) : RowFormat (opRow (.mark h d)) 3 32 24 := ⟨by decide, rfl, rfl⟩

theorem rowFormat_space (h : HandleField) (d : BitVec 32) : RowFormat (opRow (.space h d)) 4 32 24 := ⟨by decide, rfl, rfl⟩

/-- `SEND_BYTE` has no reserved bit: its reserved field is empty. -/
theorem rowFormat_sendByte (h : HandleField) (v : Byte) (m z o : BitVec 16) :
    RowFormat (opRow (.sendByte h v m z o)) 5 0 0 := ⟨by decide, rfl, rfl⟩

theorem rowFormat_reverseBits (v : Byte) : RowFormat (opRow (.reverseBits v)) 6 8 52 := ⟨by decide, rfl, rfl⟩

theorem opRow_mem_opTable (i : Instr) : opRow i ∈ opTable := by
  cases i <;> simp [opTable, opRow]

/-- A row that a word selects has the word's opcode: every mask covers bits `[63:60]`. -/
theorem opcode_of_selects {r : OpRow} (hr : r ∈ opTable) {w : Word} (hs : r.selects w = true) :
    w >>> 60 = r.pattern >>> 60 := by
  have hmask : ∀ r ∈ opTable, r.mask >>> 60 = BitVec.allOnes 64 >>> 60 := by decide
  rw [← (beq_iff_eq.mp hs : w &&& r.mask = r.pattern), BitVec.ushiftRight_and_distrib, hmask r hr,
    ← BitVec.ushiftRight_and_distrib, BitVec.and_allOnes]

/-- No two rows share an opcode. -/
theorem row_eq_of_opcode_eq : ∀ r ∈ opTable, ∀ r' ∈ opTable, r.pattern >>> 60 = r'.pattern >>> 60 → r = r' := by decide

/-- The opcodes of the rows are 1 to 6. -/
theorem opcode_legal : ∀ r ∈ opTable, r.pattern >>> 60 ≠ 0 ∧ (r.pattern >>> 60).toNat < 7 := by decide

/-! ### What the decoder makes of a row -/

theorem ifReservedZero_eq_ok {b : Bool} {i j : Instr} : ifReservedZero b i = .ok j ↔ b = true ∧ i = j := by
  cases b <;> simp [ifReservedZero]

/-- A word with the opcode of a row that passes the decoder's check of that row's reserved bits selects the row. -/
theorem RowFormat.selects_of_ifReservedZero {i j : Instr} {k : BitVec 4} {lo len : Nat} {w : Word}
    (hr : RowFormat (opRow i) k lo len) (hop : opField w = k) (h : ifReservedZero (bits w lo len == 0) i = .ok j) :
    (opRow j).selects w = true := by
  obtain ⟨hres, rfl⟩ := ifReservedZero_eq_ok.mp h
  exact (hr.selects_iff w).mpr ⟨hop, beq_iff_eq.mp hres⟩

/-- A word that decodes selects the row of its command. -/
theorem selects_of_decode {w : Word} {i : Instr} (h : decode w = .ok i) : (opRow i).selects w = true := by
  unfold decode at h
  split at h
  · next hop => exact (rowFormat_bind _ _).selects_of_ifReservedZero hop h
  split at h
  · next hop => exact (rowFormat_configure _ _).selects_of_ifReservedZero hop h
  split at h
  · next hop => exact (rowFormat_mark _ _).selects_of_ifReservedZero hop h
  split at h
  · next hop => exact (rowFormat_space _ _).selects_of_ifReservedZero hop h
  split at h
  · next hop =>
    cases h
    exact ((rowFormat_sendByte _ _ _ _ _).selects_iff w).mpr ⟨hop, BitVec.of_length_zero⟩
  split at h
  · next hop => exact (rowFormat_reverseBits _).selects_of_ifReservedZero hop h
  · cases h

/-- A word that selects a row decodes to a command. -/
theorem decode_of_selects {r : OpRow} (hr : r ∈ opTable) {w : Word} (hs : r.selects w = true) : ∃ i, decode w = .ok i := by
  simp only [opTable, List.mem_cons, List.not_mem_nil, or_false] at hr
  rcases hr with rfl | rfl | rfl | rfl | rfl | rfl
  · obtain ⟨hop, hres⟩ := (rowFormat_bind 0 0).selects_iff w |>.mp hs
    simp [decode, hop, hres, ifReservedZero]
  · obtain ⟨hop, hres⟩ := (rowFormat_configure 0 0).selects_iff w |>.mp hs
    simp [decode, hop, hres, ifReservedZero]
  · obtain ⟨hop, hres⟩ := (rowFormat_mark 0 0).selects_iff w |>.mp hs
    simp [decode, hop, hres, ifReservedZero]
  · obtain ⟨hop, hres⟩ := (rowFormat_space 0 0).selects_iff w |>.mp hs
    simp [decode, hop, hres, ifReservedZero]
  · obtain ⟨hop, -⟩ := (rowFormat_sendByte 0 0 0 0 0).selects_iff w |>.mp hs
    simp [decode, hop]
  · obtain ⟨hop, hres⟩ := (rowFormat_reverseBits 0).selects_iff w |>.mp hs
    simp [decode, hop, hres, ifReservedZero]

/-- The one row with the opcode of a word that decodes is the row of its command. -/
theorem row_eq_opRow_of_decode {w : Word} {i : Instr} (hd : decode w = .ok i) {r : OpRow} (hr : r ∈ opTable)
    (hop : w >>> 60 = r.pattern >>> 60) : r = opRow i :=
  row_eq_of_opcode_eq r hr _ (opRow_mem_opTable i)
    (hop.symm.trans (opcode_of_selects (opRow_mem_opTable i) (selects_of_decode hd)))

/-- A word with a reserved opcode decodes to no command (R79). -/
theorem decode_ne_ok_of_reserved {w : Word} (h : w >>> 60 = 0 ∨ 7 ≤ (w >>> 60).toNat) (i : Instr) : decode w ≠ .ok i := by
  intro hd
  have hop := opcode_of_selects (opRow_mem_opTable i) (selects_of_decode hd)
  obtain ⟨hzero, hlt⟩ := opcode_legal _ (opRow_mem_opTable i)
  rw [← hop] at hzero hlt
  exact h.elim hzero (Nat.not_le.mpr hlt)

/-- A word with the opcode of a row that it does not select decodes to no command (R80). -/
theorem decode_ne_ok_of_not_selects {w : Word} {r : OpRow} (hr : r ∈ opTable) (hop : w >>> 60 = r.pattern >>> 60)
    (hs : r.selects w ≠ true) (i : Instr) : decode w ≠ .ok i := by
  intro hd
  exact hs (row_eq_opRow_of_decode hd hr hop ▸ selects_of_decode hd)

end Sys2Proof

namespace Sys2Proof.Machine

/-- Settles O18: the selected row has the word's opcode, and no two rows share one. -/
theorem decodeFollowsOpcodeMap : Obligations.DecodeFollowsOpcodeMap := fun _ =>
  ⟨⟨fun ⟨i, hd⟩ => ⟨opRow i, opRow_mem_opTable i, selects_of_decode hd⟩, fun ⟨_, hr, hs⟩ => decode_of_selects hr hs⟩,
    fun _ hd _ hr => ⟨fun hs => row_eq_opRow_of_decode hd hr (opcode_of_selects hr hs),
      fun he => he ▸ selects_of_decode hd⟩⟩

/-- The sequencer's step on a word that decodes to no command takes the turn and reports it (R162). -/
theorem step_reports_of_not_ok {s : State} {w : Word} (hp : s.platform.wf = true) (hf : s.fault = none)
    (hh : s.turns.head?.getD .command = .command) (hw : fetch s = some w) (hd : ∀ i, decode w ≠ .ok i) :
    step s = .next (retireWith .illegalCommand 0 (s.setTurns (turnsLeft s))) := by
  rw [step_of_command hp hh]
  cases he : decode w with
  | ok i => exact absurd he (hd i)
  | error r => exact commandStep_illegal hf hw he

/-- Settles O10: neither kind of illegal word decodes, so the step reports it. -/
theorem illegalWordIsReported : Obligations.IllegalWordIsReported := by
  intro s w hp hf hh hw hill
  have hd : ∀ i, decode w ≠ .ok i := by
    rcases hill with hres | ⟨r, hr, hop, hne⟩
    · exact decode_ne_ok_of_reserved hres
    · exact decode_ne_ok_of_not_selects hr hop (by simpa [OpRow.selects] using hne)
  exact ⟨_, step_reports_of_not_ok hp hf hh hw hd, reportedOnly_report (by decide) _⟩

/-! ### The pseudo-instructions -/

@[simp] theorem fitsField_toNat {n : Nat} (x : BitVec n) : fitsField x.toNat n = true := decide_eq_true x.isLt

theorem fitsField_of_le {x n : Nat} (h : 2 ^ n ≤ x) : fitsField x n = false := decide_eq_false (Nat.not_lt.mpr h)

@[simp] theorem fitsField_zero (n : Nat) : fitsField 0 n = true := decide_eq_true (Nat.two_pow_pos n)

/-- A line with an operand that does not fit is an error (R83). -/
theorem assemble_of_not_wf {l : AsmLine} (h : l.wf = false) : assemble l = none := by simp [assemble, h]

theorem assemble_of_wf {l : AsmLine} (h : l.wf = true) : assemble l = some (asmWord l) := by simp [assemble, h]

/-- Two lines with the same operand check and the same word assemble alike. -/
theorem assemble_congr {l l' : AsmLine} (hwf : l.wf = l'.wf) (hw : asmWord l = asmWord l') : assemble l = assemble l' := by
  rw [assemble, assemble, hwf, hw]

/-- Settles O58: a pseudo-instruction's line passes the same check and gives the same word as the line it stands for. -/
theorem pseudoInstructions : Obligations.PseudoInstructions := by
  refine ⟨fun _ _ _ _ _ => assemble_congr ?_ ?_, fun _ _ _ _ _ hv => assemble_of_not_wf ?_,
    fun _ => assemble_congr ?_ rfl, fun _ => (assemble_of_wf ?_).trans ?_,
    fun _ hx => assemble_of_not_wf (fitsField_of_le hx)⟩
  · simp [AsmLine.wf]
  · simp [asmWord]
  · simp [AsmLine.wf, fitsField_of_le (n := 8) hv]
  · simp [AsmLine.wf]
  · simp [AsmLine.wf]
  · simp [asmWord]

end Sys2Proof.Machine
end

section
/-! PROOFS. The family 40_configuration: the words of `BIND` and `CONFIGURE` (R72, R73), the end of each command under each
of its checks (R100, R101), and what their commits write. -/

namespace Sys2Proof

/-! ### The words of the two commands -/

/-- The two high digits of a word are its opcode and its handle (R71). -/
theorem opField_handleField_of_toNat {w : Word} {k : BitVec 4} {h : HandleField}
    (hw : w.toNat / 2 ^ 56 = k.toNat * 2 ^ 4 + h.toNat) : opField w = k ∧ handleField w = h := by
  have hlt := h.isLt
  exact ⟨(opField_eq_iff w k).mpr (by omega), bits_eq (by omega)⟩

theorem decode_encode_bind (h : HandleField) (p : PinId) : decode (encode (.bind h p)) = .ok (.bind h p) := by
  have hn := encode_bind_toNat h p
  have hp := p.isLt
  obtain ⟨hop, hh⟩ := opField_handleField_of_toNat (w := encode (.bind h p)) (k := 1) (h := h) (by simp; omega)
  have hres : bits (encode (.bind h p)) 16 40 = 0 := bits_eq (by simp; omega)
  have hpin : bits (encode (.bind h p)) 0 16 = p := bits_eq (by omega)
  simp [decode, hop, hh, hres, hpin, ifReservedZero]

theorem decode_encode_configure (h : HandleField) (f : BitVec 32) :
    decode (encode (.configure h f)) = .ok (.configure h f) := by
  have hn := encode_configure_toNat h f
  have hf := f.isLt
  obtain ⟨hop, hh⟩ := opField_handleField_of_toNat (w := encode (.configure h f)) (k := 2) (h := h) (by simp; omega)
  have hres : bits (encode (.configure h f)) 32 24 = 0 := bits_eq (by simp; omega)
  have hfreq : bits (encode (.configure h f)) 0 32 = f := bits_eq (by omega)
  simp [decode, hop, hh, hres, hfreq, ifReservedZero]

end Sys2Proof

namespace Sys2Proof.Machine

/-! ### The checks -/

/-- Where every bound handle's `PIN` holds a value, a rule that reads them all goes on (R39). -/
theorem pinsWritten_of_isSome {s : State} (hw : ∀ k, s.boundAt k = true → (s.pinAt k).isSome = true) :
    s.pinsWritten = true :=
  (pinsWritten_iff s).mpr fun k _ hb => Option.isSome_iff_exists.mp (hw k hb)

theorem exec_bind_badHandle {s : State} {h : HandleField} (hb : s.platform.numHandles ≤ h.toNat) (p : PinId) :
    exec (.bind h p) s = .next (retireWith .badHandle 0 s) := by
  rw [exec_bind, execBind, if_pos ((badHandle_iff s h).mpr hb), report_eq]

theorem exec_bind_alreadyBound {s : State} {h : HandleField} (hr : h.toNat < s.platform.numHandles)
    (hb : s.boundAt h.toNat = true) (p : PinId) : exec (.bind h p) s = .next (retireWith .alreadyBound 0 s) := by
  simp [exec_bind, execBind, (badHandle_false_iff s h).mpr hr, hb]

theorem exec_bind_pinInUse {s : State} {h : HandleField} {p : PinId} (hr : h.toNat < s.platform.numHandles)
    (hb : s.boundAt h.toNat = false) (hw : s.pinsWritten = true) (hu : s.pinInUse p = true) :
    exec (.bind h p) s = .next (retireWith .pinInUse 0 s) := by
  simp [exec_bind, execBind, (badHandle_false_iff s h).mpr hr, hb, hw, hu]

theorem exec_configure_badHandle {s : State} {h : HandleField} (hb : s.platform.numHandles ≤ h.toNat) (f : BitVec 32) :
    exec (.configure h f) s = .next (retireWith .badHandle 0 s) := by
  rw [exec_configure, execConfigure, if_pos ((badHandle_iff s h).mpr hb), report_eq]

theorem exec_configure_notBound {s : State} {h : HandleField} (hr : h.toNat < s.platform.numHandles)
    (hb : s.boundAt h.toNat = false) (f : BitVec 32) :
    exec (.configure h f) s = .next (retireWith .notBound 0 s) := by
  simp [exec_configure, execConfigure, (badHandle_false_iff s h).mpr hr, hb]

theorem exec_configure_unsupportedPin {s : State} {h : HandleField} {p : PinId} (hr : h.toNat < s.platform.numHandles)
    (hb : s.boundAt h.toNat = true) (hp : s.pinAt h.toNat = some p) (hc : chanOf s.platform p = none) (f : BitVec 32) :
    exec (.configure h f) s = .next (retireWith .unsupportedPin 0 s) := by
  simp [exec_configure, execConfigure, (badHandle_false_iff s h).mpr hr, hb, hp, hc]

theorem exec_configure_freqRange {s : State} {h : HandleField} {f : BitVec 32} {p : PinId} {ch : Chan}
    (hr : h.toNat < s.platform.numHandles) (hb : s.boundAt h.toNat = true) (hp : s.pinAt h.toNat = some p)
    (hc : chanOf s.platform p = some ch) (hf : freqOk s.platform ch.timer f.toNat = false) :
    exec (.configure h f) s = .next (retireWith .freqRange 0 s) := by
  simp [exec_configure, execConfigure, (badHandle_false_iff s h).mpr hr, hb, hp, hc, hf]

/-! ### The commits -/

/-- A command retires OK after a transition to `u` that leaves `ERRLOG`, `cpc` and `FAULT` (R171). -/
theorem retiredOk_retireWith {s u : State} (hlog : u.errlog = s.errlog) (hcpc : u.cpc = s.cpc)
    (hfault : u.fault = s.fault) (v : Byte) : RetiredOk v s (retireWith .ok v u) :=
  ⟨rfl, hlog, congrArg (· + 1) hcpc, hfault⟩

/-- `CONFIGURE` of handle `h` clears `CFG` of another handle when it is bound to a pin of the same timer, and only then
(R107). -/
theorem cfgAt_commitConfigure_cotenant {h k : Nat} (hk : k ≠ h) (p : PinId) (ch : Chan) (f : Nat) (s : State) :
    ((k < s.platform.numHandles ∧ s.boundAt k = true ∧
        ∃ q x, s.pinAt k = some q ∧ chanOf s.platform q = some x ∧ x.timer = ch.timer) →
      (commitConfigure h p ch f s).cfgAt k = false) ∧
    (¬(k < s.platform.numHandles ∧ s.boundAt k = true ∧
        ∃ q x, s.pinAt k = some q ∧ chanOf s.platform q = some x ∧ x.timer = ch.timer) →
      (commitConfigure h p ch f s).cfgAt k = s.cfgAt k) := by
  rw [← onTimer_iff, cfgAt_commitConfigure, if_neg hk.symm]
  exact ⟨fun hon => if_pos hon, fun hoff => if_neg hoff⟩

/-! ### The obligations -/

/-- Settles O21: each check that fails has its own report, and `commitBind` writes the handle's registers alone. -/
theorem bindMeaning : Obligations.BindMeaning := by
  intro h p s hw
  have hwritten := pinsWritten_of_isSome hw
  refine ⟨decode_encode_bind h p, fun hb => ⟨_, exec_bind_badHandle hb p, reportedOnly_report (by decide) s⟩,
    fun hr hb => ⟨_, exec_bind_alreadyBound hr hb p, reportedOnly_report (by decide) s⟩,
    fun hr hb hu => ⟨_, exec_bind_pinInUse hr hb hwritten ((pinInUse_iff s p).mpr hu), reportedOnly_report (by decide) s⟩,
    fun hr hb hu => ?_⟩
  have hunused : s.pinInUse p = false := by
    rw [Bool.eq_false_iff, ne_eq, pinInUse_iff]
    exact fun ⟨k, hk, hbk, hpk⟩ => hu k hk hbk hpk
  exact ⟨_, exec_bind_passes ⟨hr, hb, hwritten, hunused⟩, retiredOk_retireWith rfl rfl rfl 0,
    fun _ => by simp [eq_comm],
    fun _ => by simp [eq_comm],
    fun _ => by simp [eq_comm],
    ⟨rfl, rfl, rfl⟩, ⟨rfl, rfl⟩, ⟨rfl, rfl⟩, ⟨rfl, rfl, rfl⟩, rfl⟩

/-- Settles O22: each check that fails has its own report, and `commitConfigure` writes the registers of the pin, its
channel and its timer, `CFG` of the handle, and `CFG` of its co-tenants. -/
theorem configureMeaning : Obligations.ConfigureMeaning := by
  intro h f s hw
  refine ⟨decode_encode_configure h f, fun hb => ⟨_, exec_configure_badHandle hb f, reportedOnly_report (by decide) s⟩,
    fun hr hb => ⟨_, exec_configure_notBound hr hb f, reportedOnly_report (by decide) s⟩,
    fun p hr hb hp =>
      ⟨fun hc => ⟨_, exec_configure_unsupportedPin hr hb hp hc f, reportedOnly_report (by decide) s⟩,
        fun ch hc => ⟨fun hbad => ?_, fun hok => ?_⟩⟩⟩
  · have hf : freqOk s.platform ch.timer f.toNat = false := by rwa [Bool.eq_false_iff, ne_eq, freqOk_iff]
    exact ⟨_, exec_configure_freqRange hr hb hp hc hf, reportedOnly_report (by decide) s⟩
  · have hpass : ConfigurePasses s h f p ch :=
      ⟨hr, hb, hp, hc, (freqOk_iff s.platform ch.timer f.toNat).mpr hok, pinsWritten_of_isSome hw⟩
    exact ⟨_, exec_configure_passes hpass, retiredOk_retireWith (by simp) (by simp) (by simp) 0,
      fun _ => by simp [eq_comm],
      fun _ => by simp [eq_comm],
      fun _ => by simp [eq_comm],
      fun _ => by simp [eq_comm, compareOf_eq],
      fun _ => by simp [eq_comm],
      fun _ => by simp [eq_comm],
      fun _ => by simp [eq_comm],
      by simp, fun k hk => cfgAt_commitConfigure_cotenant hk p ch f.toNat s,
      by simp, by simp, by simp [SameOutside], by simp⟩

end Sys2Proof.Machine
end

section
/-! PROOFS. The family 41_gating: the words of `MARK` and `SPACE` (R74), the ends of a gating command under the shared checks
(R170), the one gate transition of both commands (R121, R122), and which enable bit a command can change (R125). -/

namespace Sys2Proof

/-! ### The words of the two commands -/

/-- The fields of a word with a handle and a 32-bit duration (R74). -/
theorem gateWord_fields {w : Word} {k : BitVec 4} {h : HandleField} {d : BitVec 32}
    (hw : w.toNat = k.toNat * 2 ^ 60 + h.toNat * 2 ^ 56 + d.toNat) :
    opField w = k ∧ handleField w = h ∧ bits w 32 24 = 0 ∧ bits w 0 32 = d := by
  have hd := d.isLt
  obtain ⟨hop, hh⟩ := opField_handleField_of_toNat (w := w) (k := k) (h := h) (by omega)
  exact ⟨hop, hh, bits_eq (by simp; omega), bits_eq (by omega)⟩

theorem decode_encode_mark (h : HandleField) (d : BitVec 32) : decode (encode (.mark h d)) = .ok (.mark h d) := by
  obtain ⟨hop, hh, hres, hdur⟩ := gateWord_fields (k := 3) (encode_mark_toNat h d)
  simp [decode, hop, hh, hres, hdur, ifReservedZero]

theorem decode_encode_space (h : HandleField) (d : BitVec 32) : decode (encode (.space h d)) = .ok (.space h d) := by
  obtain ⟨hop, hh, hres, hdur⟩ := gateWord_fields (k := 4) (encode_space_toNat h d)
  simp [decode, hop, hh, hres, hdur, ifReservedZero]

end Sys2Proof

namespace Sys2Proof.Machine

/-! ### The shared checks -/

theorem exec_gating_badHandle {i : Instr} {h : HandleField} (hg : isGating i = true) (hi : handleOf i = some h)
    {s : State} (hb : s.platform.numHandles ≤ h.toNat) : exec i s = .next (retireWith .badHandle 0 s) := by
  obtain ⟨act, ha⟩ := exec_eq_gated hg hi s
  rw [ha, gated_badHandle hb, report_eq]

theorem exec_gating_notBound {i : Instr} {h : HandleField} (hg : isGating i = true) (hi : handleOf i = some h)
    {s : State} (hr : h.toNat < s.platform.numHandles) (hb : s.boundAt h.toNat = false) :
    exec i s = .next (retireWith .notBound 0 s) := by
  obtain ⟨act, ha⟩ := exec_eq_gated hg hi s
  rw [ha, gated_notBound hr hb, report_eq]

theorem exec_gating_notConfigured {i : Instr} {h : HandleField} (hg : isGating i = true) (hi : handleOf i = some h)
    {s : State} (hr : h.toNat < s.platform.numHandles) (hb : s.boundAt h.toNat = true) (hc : s.cfgAt h.toNat = false) :
    exec i s = .next (raise .notConfigured s) := by
  obtain ⟨act, ha⟩ := exec_eq_gated hg hi s
  rw [ha, gated_notConfigured hr hb hc]

/-- The three ends of a gating command that fails a check, in the order of the checks (R170), in the terms of claims. -/
theorem gating_fails {i : Instr} {h : HandleField} (hg : isGating i = true) (hi : handleOf i = some h) (s : State) :
    (s.platform.numHandles ≤ h.toNat → ∃ t, exec i s = .next t ∧ ReportedOnly .badHandle s t) ∧
    (h.toNat < s.platform.numHandles → s.boundAt h.toNat = false →
      ∃ t, exec i s = .next t ∧ ReportedOnly .notBound s t) ∧
    (h.toNat < s.platform.numHandles → s.boundAt h.toNat = true → s.cfgAt h.toNat = false →
      ∃ t, exec i s = .next t ∧ RaisedOnly .notConfigured s t) :=
  ⟨fun hb => ⟨_, exec_gating_badHandle hg hi hb, reportedOnly_report (by decide) s⟩,
    fun hr hb => ⟨_, exec_gating_notBound hg hi hr hb, reportedOnly_report (by decide) s⟩,
    fun hr hb hc => ⟨_, exec_gating_notConfigured hg hi hr hb hc, rfl⟩⟩

/-! ### One gate transition -/

/-- A command that is one gate transition and retires OK: the enable bit of the channel `ch`, one event, and every other
register as before. -/
theorem retire_gate_frame (h : Nat) (p : PinId) (ch : Chan) (kind : WaitKind) (d : Nat) {s t : State}
    (ht : t = retireWith .ok 0 (gate h p ch kind d s)) :
    RetiredOk 0 s t ∧ (∀ x, t.enAt x = if x = ch then kind == .mark else s.enAt x) ∧
      t.trace = s.trace ++ [waitEvent s.cpc h p kind d] ∧
      t.cmp = s.cmp ∧ SameHandles s t ∧ SameTimers s t ∧ SamePins s t ∧ SameOutside s t := by
  subst ht
  exact ⟨retiredOk_retireWith rfl rfl rfl 0, fun x => by simp [eq_comm], rfl, rfl, ⟨rfl, rfl, rfl⟩, ⟨rfl, rfl, rfl⟩,
    ⟨rfl, rfl⟩, ⟨rfl, rfl, rfl⟩⟩

/-! ### Which enable bit a command can change -/

/-- The handle of a command is bound to a pin of channel `ch` (R125). -/
def OwnsChannel (i : Instr) (s : State) (ch : Chan) : Prop :=
  ∃ h p, handleOf i = some h ∧ s.pinAt h.toNat = some p ∧ chanOf s.platform p = some ch

theorem ne_of_not_ownsChannel {i : Instr} {s : State} {h : HandleField} {p : PinId} {ch x : Chan}
    (hi : handleOf i = some h) (hp : s.pinAt h.toNat = some p) (hc : chanOf s.platform p = some ch)
    (hx : ¬OwnsChannel i s x) : ch ≠ x := by
  rintro rfl
  exact hx ⟨h, p, hi, hp, hc⟩

/-- Every end of a command leaves the enable bits of the channels that its handle does not own. -/
theorem Ends.enAt_of_not_ownsChannel {i : Instr} {s t : State} (he : Ends s i t) {x : Chan}
    (hx : ¬OwnsChannel i s x) : t.enAt x = s.enAt x := by
  cases he with
  | reported => rfl
  | raisedMark => rfl
  | raisedSpace => rfl
  | raisedSendByte => rfl
  | bound => rfl
  | configured h f p ch hp => simp [ne_of_not_ownsChannel rfl hp.pin hp.chan hx]
  | marked h d p ch hp => simp [ne_of_not_ownsChannel rfl hp.pin hp.chan hx]
  | spaced h d p ch hp => simp [ne_of_not_ownsChannel rfl hp.pin hp.chan hx]
  | sent h v m z o p ch hp => simp [ne_of_not_ownsChannel rfl hp.pin hp.chan hx]
  | reversed => rfl

/-! ### The obligations -/

/-- Settles O23: the failing ends are those of every gating command, and a `MARK` that passes is one gate transition with
the enable bit 1. -/
theorem markMeaning : Obligations.MarkMeaning := by
  intro h d s
  obtain ⟨hbad, hunbound, hunconf⟩ := gating_fails (i := .mark h d) rfl rfl s
  exact ⟨decode_encode_mark h d, hbad, hunbound, hunconf, fun p ch hr hb hc hp hch =>
    ⟨_, exec_mark_passes ⟨hr, hb, hc, hp, hch⟩ d, retire_gate_frame h.toNat p ch .mark d.toNat rfl⟩⟩

/-- Settles O24: the failing ends are those of every gating command, and a `SPACE` that passes is one gate transition with
the enable bit 0. -/
theorem spaceMeaning : Obligations.SpaceMeaning := by
  intro h d s
  obtain ⟨hbad, hunbound, hunconf⟩ := gating_fails (i := .space h d) rfl rfl s
  exact ⟨decode_encode_space h d, hbad, hunbound, hunconf, fun p ch hr hb hc hp hch =>
    ⟨_, exec_space_passes ⟨hr, hb, hc, hp, hch⟩ d, retire_gate_frame h.toNat p ch .space d.toNat rfl⟩⟩

/-- Settles O44: a changed enable bit is the handle's own, for every end of a command leaves the others. -/
theorem onlyOwnChannelIsGated : Obligations.OnlyOwnChannelIsGated := by
  intro i s t ch ht hne
  by_contra hx
  exact hne ((exec_ends ht).enAt_of_not_ownsChannel hx)

end Sys2Proof.Machine
end

section
/-! PROOFS. The family 42_serializer: the words of `SEND_BYTE` and `REVERSE_BITS` (R75, R76), the events and the last enable
bit of a byte's sixteen gates (R140), and the bit reverser, bit by bit (R141, R144). -/

namespace Sys2Proof

/-! ### The words of the two commands -/

theorem decode_encode_sendByte (h : HandleField) (v : Byte) (m z o : BitVec 16) :
    decode (encode (.sendByte h v m z o)) = .ok (.sendByte h v m z o) := by
  have hn := encode_sendByte_toNat h v m z o
  have hv := v.isLt
  have hm := m.isLt
  have hz := z.isLt
  have ho := o.isLt
  obtain ⟨hop, hh⟩ :=
    opField_handleField_of_toNat (w := encode (.sendByte h v m z o)) (k := 5) (h := h) (by simp; omega)
  have hval : bits (encode (.sendByte h v m z o)) 48 8 = v := bits_eq (by omega)
  have hmark : bits (encode (.sendByte h v m z o)) 32 16 = m := bits_eq (by omega)
  have hzero : bits (encode (.sendByte h v m z o)) 16 16 = z := bits_eq (by omega)
  have hone : bits (encode (.sendByte h v m z o)) 0 16 = o := bits_eq (by omega)
  simp [decode, hop, hh, hval, hmark, hzero, hone]

theorem decode_encode_reverseBits (v : Byte) : decode (encode (.reverseBits v)) = .ok (.reverseBits v) := by
  have hn := encode_reverseBits_toNat v
  have hv := v.isLt
  have hop : opField (encode (.reverseBits v)) = 6 := (opField_eq_iff _ 6).mpr (by simp; omega)
  have hres : bits (encode (.reverseBits v)) 8 52 = 0 := bits_eq (by simp; omega)
  have hval : bits (encode (.reverseBits v)) 0 8 = v := bits_eq (by omega)
  simp [decode, hop, hres, hval, ifReservedZero]

end Sys2Proof

namespace Sys2Proof.Machine

/-! ### The gates of a byte -/

/-- The events of a byte: eight mark and space pairs, least-significant bit first (R140). -/
theorem gateEvents_byteGates (idx h : Nat) (p : PinId) (v : Byte) (m z o : Nat) :
    gateEvents idx h p (byteGates v m z o) = (List.range 8).flatMap fun i =>
      [waitEvent idx h p .mark m, waitEvent idx h p .space (if v.getLsbD i then o else z)] := by
  rw [gateEvents, byteGates, serialize_eq, List.map_flatMap]
  rfl

/-- A command that is a list of gate transitions and retires OK: the last gate's enable bit on the channel `ch`, the
gates' events, all of one index, and every other register as before. -/
theorem retire_gates_frame (h : Nat) (p : PinId) (ch : Chan) (gs : List (WaitKind × Nat)) {s t : State}
    (ht : t = retireWith .ok 0 (gates h p ch gs s)) :
    RetiredOk 0 s t ∧ (∀ x, t.enAt x = if x = ch then lastBit (s.enAt ch) gs else s.enAt x) ∧
      t.trace = s.trace ++ gateEvents s.cpc h p gs ∧
      t.cmp = s.cmp ∧ SameHandles s t ∧ SameTimers s t ∧ SamePins s t ∧ SameOutside s t := by
  subst ht
  exact ⟨retiredOk_retireWith (by simp) (by simp) (by simp) 0, fun x => by simp [eq_comm], gates_trace h p ch gs s,
    by simp, by simp [SameHandles], by simp [SameTimers], by simp [SamePins], by simp [SameOutside]⟩

/-! ### The bit reverser -/

theorem getLsbD_append_bitOf_zero {n : Nat} (x : BitVec n) (v : Byte) (k : Nat) :
    (x ++ bitOf v k).getLsbD 0 = v.getLsbD k := by
  rw [BitVec.getLsbD_append]
  simp [bitOf]

theorem getLsbD_append_bitOf_succ {n : Nat} (x : BitVec n) (v : Byte) (k i : Nat) :
    (x ++ bitOf v k).getLsbD (i + 1) = x.getLsbD i := by
  simp [BitVec.getLsbD_append]

/-- Bit `i` of the reversed byte stands `i` places from the low end of the concatenation, which is bit `7 - i` (R144). -/
theorem rev8_getLsbD (v : Byte) {i : Nat} (hi : i < 8) : (rev8 v).getLsbD i = v.getLsbD (7 - i) := by
  have hlast : (bitOf v 0).getLsbD 0 = v.getLsbD 0 := by simp [bitOf]
  unfold rev8
  interval_cases i <;> simp only [getLsbD_append_bitOf_zero, getLsbD_append_bitOf_succ, hlast]

/-- Reversal is an involution: `7 - (7 - i)` is `i` (R144). -/
theorem rev8_rev8 (v : Byte) : rev8 (rev8 v) = v := by
  apply BitVec.eq_of_getLsbD_eq
  intro i hi
  rw [rev8_getLsbD _ hi, rev8_getLsbD v (by omega), Nat.sub_sub_self (Nat.le_of_lt_succ hi)]

/-! ### The obligations -/

/-- Settles O25: the failing ends are those of every gating command, and a `SEND_BYTE` that passes is the gates of its
byte, the last of which is a space. -/
theorem sendByteMeaning : Obligations.SendByteMeaning := by
  intro h v m z o s
  obtain ⟨hbad, hunbound, hunconf⟩ := gating_fails (i := .sendByte h v m z o) rfl rfl s
  refine ⟨decode_encode_sendByte h v m z o, hbad, hunbound, hunconf, fun p ch hr hb hc hp hch =>
    ⟨_, exec_sendByte_passes ⟨hr, hb, hc, hp, hch⟩ v m z o, ?_⟩⟩
  rw [← gateEvents_byteGates, ← lastBit_byteGates (s.enAt ch) v m.toNat z.toNat o.toNat]
  exact retire_gates_frame h.toNat p ch _ rfl

/-- Settles O26: the command retires OK with `rev8` of its operand. -/
theorem reverseBitsMeaning : Obligations.ReverseBitsMeaning := fun v s =>
  ⟨decode_encode_reverseBits v, _, _, exec_reverseBits v s, retiredOk_retireWith rfl rfl rfl (rev8 v),
    fun _ hi => rev8_getLsbD v hi, rfl⟩

/-- Settles O41: bit by bit, and twice reversed. -/
theorem reverseLaws : Obligations.ReverseLaws := fun v => ⟨rev8_rev8 v, fun _ hi => rev8_getLsbD v hi⟩

end Sys2Proof.Machine
end

section
/-! PROOFS. The family 60_exceptions: the two reports about a handle, for every command that names one (R163, R164), the
fault of an unconfigured handle (R169), and the three ends of a command (R160, R171, R172). -/

namespace Sys2Proof.Machine

/-! ### The checks of the handle -/

/-- The commands that name a handle are `BIND`, `CONFIGURE` and the gating commands (R163). -/
theorem handleOf_cases {i : Instr} {h : HandleField} (hi : handleOf i = some h) :
    (∃ p, i = .bind h p) ∨ (∃ f, i = .configure h f) ∨ isGating i = true := by
  cases i with
  | bind k p => cases hi; exact .inl ⟨p, rfl⟩
  | configure k f => cases hi; exact .inr (.inl ⟨f, rfl⟩)
  | mark => exact .inr (.inr rfl)
  | space => exact .inr (.inr rfl)
  | sendByte => exact .inr (.inr rfl)
  | reverseBits => cases hi

theorem exec_badHandle {i : Instr} {h : HandleField} (hi : handleOf i = some h) {s : State}
    (hb : s.platform.numHandles ≤ h.toNat) : exec i s = .next (retireWith .badHandle 0 s) := by
  obtain ⟨p, rfl⟩ | ⟨f, rfl⟩ | hg := handleOf_cases hi
  · exact exec_bind_badHandle hb p
  · exact exec_configure_badHandle hb f
  · exact exec_gating_badHandle hg hi hb

/-- `BIND` is the one command that names a handle and does not ask for it to be bound (R164). -/
theorem exec_notBound {i : Instr} {h : HandleField} (hi : handleOf i = some h) (hbind : ∀ k p, i ≠ .bind k p) {s : State}
    (hr : h.toNat < s.platform.numHandles) (hb : s.boundAt h.toNat = false) :
    exec i s = .next (retireWith .notBound 0 s) := by
  obtain ⟨p, rfl⟩ | ⟨f, rfl⟩ | hg := handleOf_cases hi
  · exact absurd rfl (hbind h p)
  · exact exec_configure_notBound hr hb f
  · exact exec_gating_notBound hg hi hr hb

/-! ### The three ends -/

/-- The ends of a command in the terms of claims: a commit leaves `ERRLOG`, `cpc` and `FAULT` to the retirement, a report
writes nothing before it, and the fault entry is not a retirement (R171, R172). -/
theorem Ends.threeWays {i : Instr} {s t : State} (he : Ends s i t) :
    (∃ v, RetiredOk v s t) ∨ (∃ e, e ≠ .ok ∧ ReportedOnly e s t) ∨ RaisedOnly .notConfigured s t := by
  cases he with
  | reported _ e hne => exact .inr (.inl ⟨e, hne, reportedOnly_report hne s⟩)
  | raisedMark => exact .inr (.inr rfl)
  | raisedSpace => exact .inr (.inr rfl)
  | raisedSendByte => exact .inr (.inr rfl)
  | bound => exact .inl ⟨0, retiredOk_retireWith rfl rfl rfl 0⟩
  | configured => exact .inl ⟨0, retiredOk_retireWith (by simp) (by simp) (by simp) 0⟩
  | marked => exact .inl ⟨0, retiredOk_retireWith rfl rfl rfl 0⟩
  | spaced => exact .inl ⟨0, retiredOk_retireWith rfl rfl rfl 0⟩
  | sent => exact .inl ⟨0, retiredOk_retireWith (by simp) (by simp) (by simp) 0⟩
  | reversed v => exact .inl ⟨rev8 v, retiredOk_retireWith rfl rfl rfl (rev8 v)⟩

/-! ### The obligations -/

/-- Settles O27: the range of the handle is the first check of every command that names one. -/
theorem badHandleIsReported : Obligations.BadHandleIsReported := fun _ _ s hi hb =>
  ⟨_, exec_badHandle hi hb, reportedOnly_report (by decide) s⟩

/-- Settles O28: for every command but `BIND`, the second check of an existing handle is that it is bound. -/
theorem notBoundIsReported : Obligations.NotBoundIsReported := fun _ _ s hi hbind hr hb =>
  ⟨_, exec_notBound hi hbind hr hb, reportedOnly_report (by decide) s⟩

/-- Settles O29: the last of the shared checks of a gating command raises the fault. -/
theorem unconfiguredGateFaults : Obligations.UnconfiguredGateFaults := fun _ _ _ hg hi hr hb hc =>
  exec_gating_notConfigured hg hi hr hb hc

/-- Settles O31: each of the ends of a command is one of the three. -/
theorem commandEndsInOneOfThreeWays : Obligations.CommandEndsInOneOfThreeWays := fun _ _ _ ht =>
  (exec_ends ht).threeWays

end Sys2Proof.Machine
end

section
/-! PROOFS. The family 70_reset_and_hazards: the reset value of every register (R190). -/

namespace Sys2Proof.Machine

/-- Settles O1: each conjunct is the law of reset for its register. -/
theorem resetValues : Obligations.ResetValues := by
  intro P ws ts s
  have hHandles (h : Nat) : s.boundAt h = false ∧ s.pinAt h = none ∧ s.cfgAt h = false :=
    ⟨State.boundAt_resetOn P ws ts h, State.pinAt_resetOn P ws ts h, State.cfgAt_resetOn P ws ts h⟩
  have hTimers (t : Nat) : s.modeAt t = .stopped ∧ s.topAt t = none ∧ s.phaseAt t = 0 :=
    ⟨State.modeAt_resetOn P ws ts t, State.topAt_resetOn P ws ts t, State.phaseAt_resetOn P ws ts t⟩
  have hChans (ch : Chan) : s.cmpAt ch = none ∧ s.enAt ch = false :=
    ⟨State.cmpAt_resetOn P ws ts ch, State.enAt_resetOn P ws ts ch⟩
  have hPins (p : PinId) : s.dirAt p = .inp ∧ s.latchAt p = false :=
    ⟨State.dirAt_resetOn P ws ts p, State.latchAt_resetOn P ws ts p⟩
  exact ⟨State.resetOn_cpc P ws ts, State.resetOn_resp P ws ts, State.resetOn_errlog P ws ts,
    State.resetOn_fault P ws ts, State.resetOn_trace P ws ts, hHandles, hTimers, hChans, hPins⟩

end Sys2Proof.Machine
end

section
/-! PROOFS. The invariant of the model (State.Inv): it holds after reset, and every transition that a step is made of keeps
it. Each of the transitions has one lemma, which speaks of the registers that the transition writes and takes the other
clauses over. -/

namespace Sys2Proof.Machine

/-! ### Reset -/

/-- Settles O3: after reset every register file is empty, so each clause speaks of no register or of a reset value. -/
theorem resetMeetsInvariant : Obligations.ResetMeetsInvariant := fun P ws ts =>
  { canonical := by simp [State.Canonical, regWf, logWf]
    cpcInStream := Nat.zero_le _
    boundRange := by simp
    boundPin := by simp
    cfgBound := by simp
    pinsDistinct := by simp
    configured := by simp
    running := by simp
    stopped := by simp
    compares := by simp
    enabled := by simp
    driven := by simp
    latchLow := by simp
    respCode := by simp
    faultHere := by simp
    traced := by simp }

/-! ### The turn and the tick -/

theorem State.Inv.setTurns {s : State} (hi : s.Inv) (ts : List Turn) : (s.setTurns ts).Inv := { hi with }

/-- A phase within the period of a running timer. -/
theorem State.Inv.setPhase {s : State} (hi : s.Inv) {k top v : Nat} (hm : s.modeAt k = .carrier)
    (htop : s.topAt k = some top) (hv : v < slopeTicks s.platform.slope * top) : (s.setPhase k v).Inv :=
  { hi with
    canonical := by
      obtain ⟨hbound, hpin, hcfg, hmode, htops, hphase, hrest⟩ := hi.canonical
      exact ⟨hbound, hpin, hcfg, hmode, htops, regSet_wf natLt_order hphase k v, hrest⟩
    running := fun t ht => by
      obtain ⟨top', htop', hlo, hhi, hph⟩ := hi.running t ht
      refine ⟨top', htop', hlo, hhi, ?_⟩
      rw [State.phaseAt_setPhase]
      split
      · next he =>
        subst he
        cases htop.symm.trans htop'
        exact hv
      · exact hph
    stopped := fun t ht => by
      have hne : k ≠ t := by
        rintro rfl
        cases hm.symm.trans ht
      simpa [hne] using hi.stopped t ht }

/-! ### The ends of a command -/

/-- A retirement of the command at `cpc`: the error log stays canonical, and every event is of an earlier command. -/
theorem State.Inv.retireWith {s : State} (hi : s.Inv) (hlt : s.cpc < s.stream.length) (hf : s.fault = none) (e : Status)
    (v : Byte) : (retireWith e v s).Inv :=
  { hi with
    canonical := by
      obtain ⟨hbound, hpin, hcfg, hmode, htop, hphase, hcmp, hen, hdir, hlatch, hlog, hok⟩ := hi.canonical
      have hlog' : logWf (Machine.retireWith e v s).errlog ∧ Status.ok ∉ (Machine.retireWith e v s).errlog := by
        rw [retireWith_errlog]
        split
        · exact ⟨hlog, hok⟩
        · next he => exact ⟨logWith_wf s.errlog e, by simp [mem_logWith, hok, Ne.symm he]⟩
      exact ⟨hbound, hpin, hcfg, hmode, htop, hphase, hcmp, hen, hdir, hlatch, hlog'⟩
    cpcInStream := hlt
    respCode := statusCode_lt e
    faultHere := by simp [hf]
    traced := fun x hx => by
      obtain ⟨hidx, hrest⟩ := hi.traced x hx
      exact ⟨Nat.lt_succ_of_lt hidx, hrest⟩ }

/-- The fault entry stands at the command at `cpc`. -/
theorem State.Inv.raise {s : State} (hi : s.Inv) (f : FaultReason) : (raise f s).Inv :=
  { hi with
    faultHere := fun r hr => by
      cases hr
      rfl }

/-! ### The commits -/

/-- A handle that is free holds no pin, so no event and no other register speaks of it. -/
theorem State.Inv.pinAt_of_free {s : State} (hi : s.Inv) {h : Nat} (hb : s.boundAt h = false) : s.pinAt h = none := by
  have := hi.boundPin h
  rw [hb] at this
  simpa using this.symm

theorem State.Inv.ne_of_free {s : State} (hi : s.Inv) {h k : Nat} {p : PinId} (hb : s.boundAt h = false)
    (hp : s.pinAt k = some p) : h ≠ k := by
  rintro rfl
  cases (hi.pinAt_of_free hb).symm.trans hp

/-- A pin that no bound handle holds is no handle's pin. -/
theorem State.Inv.pinAt_ne_of_unused {s : State} (hi : s.Inv) {p : PinId} (hu : s.pinInUse p = false) (k : Nat) :
    s.pinAt k ≠ some p := by
  intro hk
  have hb : s.boundAt k = true := by simp [hi.boundPin, hk]
  have := (pinInUse_iff s p).mpr ⟨k, hi.boundRange k hb, hb, hk⟩
  simp [hu] at this

/-- `BIND` gives a free handle a pin that no handle holds. -/
theorem State.Inv.commitBind {s : State} (hi : s.Inv) {h : HandleField} {p : PinId} (hp : BindPasses s h p) :
    (commitBind h.toNat p s).Inv :=
  { hi with
    canonical := by
      obtain ⟨hbound, hpin, hcfg, hrest⟩ := hi.canonical
      exact ⟨regSet_wf natLt_order hbound h.toNat true, regSet_wf natLt_order hpin h.toNat (some p),
        regSet_wf natLt_order hcfg h.toNat false, hrest⟩
    boundRange := fun k hk => by
      by_cases he : h.toNat = k
      · exact he ▸ hp.inRange
      · exact hi.boundRange k (by simpa [he] using hk)
    boundPin := fun k => by
      by_cases he : h.toNat = k
      · simp [he]
      · simpa [he] using hi.boundPin k
    cfgBound := fun k hk => by
      by_cases he : h.toNat = k
      · simp [he]
      · simpa [he] using hi.cfgBound k (by simpa [he] using hk)
    pinsDistinct := fun k k' q hk hk' => by
      have hunused := hi.pinAt_ne_of_unused hp.unused
      rw [pinAt_commitBind] at hk hk'
      split at hk <;> split at hk'
      · next he he' => exact he.symm.trans he'
      · cases hk
        exact absurd hk' (hunused k')
      · cases hk'
        exact absurd hk (hunused k)
      · exact hi.pinsDistinct k k' q hk hk'
    configured := fun k q hk hq => by
      have he : h.toNat ≠ k := by
        rintro rfl
        simp at hk
      exact hi.configured k q (by simpa [he] using hk) (by simpa [he] using hq)
    enabled := fun ch hch => by
      obtain ⟨k, q, c, hq, hrest⟩ := hi.enabled ch hch
      exact ⟨k, q, c, by simpa [hi.ne_of_free hp.free hq] using hq, hrest⟩
    driven := fun q hq => by
      obtain ⟨k, hk⟩ := hi.driven q hq
      exact ⟨k, by simpa [hi.ne_of_free hp.free hk] using hk⟩
    traced := fun e he => by
      obtain ⟨hidx, hpin, hrest⟩ := hi.traced e he
      exact ⟨hidx, by simpa [hi.ne_of_free hp.free hpin] using hpin, hrest⟩ }

/-- A handle that `CONFIGURE` of `h` leaves configured is `h` itself, or it was configured and its pin is mapped to another
timer (R107). -/
theorem State.Inv.cfgAt_commitConfigure_cases {s : State} (hi : s.Inv) {h k : Nat} {p q : PinId} {ch : Chan} {f : Nat}
    (hk : (commitConfigure h p ch f s).cfgAt k = true) (hq : s.pinAt k = some q) :
    h = k ∨ h ≠ k ∧ s.cfgAt k = true ∧ ∀ x, chanOf s.platform q = some x → ch.timer ≠ x.timer := by
  by_cases he : h = k
  · exact .inl he
  · rw [cfgAt_commitConfigure, if_neg he] at hk
    split at hk
    · cases hk
    · next hon =>
      have hb := hi.cfgBound k hk
      refine .inr ⟨he, hk, fun x hx ht => hon ⟨hi.boundRange k hb, ?_⟩⟩
      exact (onTimer_iff s ch.timer k).mpr ⟨hb, q, x, hq, hx, ht.symm⟩

theorem commitConfigure_cfg_wf (h : Nat) (p : PinId) (ch : Chan) (f : Nat) {s : State}
    (hs : regWf natLt false s.cfg) : regWf natLt false (commitConfigure h p ch f s).cfg := by
  rw [commitConfigure, State.setCfg_cfg, invalidateCotenants_cfg, configureRegs_cfg]
  exact regSet_wf natLt_order (clearCfgs_wf _ hs) _ _

/-- `CONFIGURE` leaves its handle configured on a timer in range, and every other configured handle on another timer. -/
theorem State.Inv.commitConfigure {s : State} (hi : s.Inv) {h : HandleField} {f : BitVec 32} {p : PinId} {ch : Chan}
    (hp : ConfigurePasses s h f p ch) : (commitConfigure h.toNat p ch f.toNat s).Inv := by
  obtain ⟨-, hthree, hwidth⟩ := (freqOk_iff _ _ _).mp hp.freq
  have hdir : ∀ q, s.dirAt q = .out → (Machine.commitConfigure h.toNat p ch f.toNat s).dirAt q = .out := fun q hq => by
    simp [hq]
  refine
    { canonical := ?canonical
      cpcInStream := by simpa using hi.cpcInStream
      boundRange := by simpa using hi.boundRange
      boundPin := by simpa using hi.boundPin
      cfgBound := fun k hk => ?cfgBound
      pinsDistinct := by simpa using hi.pinsDistinct
      configured := fun k q hk hq => ?configured
      running := fun t ht => ?running
      stopped := fun t ht => ?stopped
      compares := fun x c hc => ?compares
      enabled := fun x hx => ?enabled
      driven := fun q hq => ?driven
      latchLow := by simpa using fun q _ => hi.latchLow q
      respCode := by simpa using hi.respCode
      faultHere := by simpa using hi.faultHere
      traced := by simpa using hi.traced }
  case canonical =>
    obtain ⟨hbound, hpin, hcfg, hmode, htop, hphase, hcmp, hen, hdir, hlatch, hlog⟩ := hi.canonical
    simp only [State.Canonical, commitConfigure_bound, commitConfigure_pin, commitConfigure_mode, commitConfigure_top,
      commitConfigure_phase, commitConfigure_cmp, commitConfigure_en, commitConfigure_dir, commitConfigure_latch,
      commitConfigure_errlog]
    exact ⟨hbound, hpin, commitConfigure_cfg_wf _ _ _ _ hcfg, regSet_wf natLt_order hmode _ _,
      regSet_wf natLt_order htop _ _, regSet_wf natLt_order hphase _ _, regSet_wf chanLt_order hcmp _ _,
      regSet_wf chanLt_order hen _ _, regSet_wf pinLt_order hdir _ _, regSet_wf pinLt_order hlatch _ _, hlog⟩
  case cfgBound =>
    rw [boundAt_commitConfigure]
    by_cases he : h.toNat = k
    · exact he ▸ hp.bound
    · rw [cfgAt_commitConfigure, if_neg he] at hk
      split at hk
      · cases hk
      · exact hi.cfgBound k hk
  case configured =>
    rw [pinAt_commitConfigure] at hq
    rcases hi.cfgAt_commitConfigure_cases hk hq with rfl | ⟨-, hcfg, htimer⟩
    · cases hp.pin.symm.trans hq
      exact ⟨ch, divide s.platform f.toNat, by simpa using hp.chan, by simp, by simp, by simp, by simp⟩
    · obtain ⟨x, top, hx, hm, htop, hcmp, hd⟩ := hi.configured k q hcfg hq
      have hne := htimer x hx
      have hch : ch ≠ x := fun he => hne (he ▸ rfl)
      exact ⟨x, top, by simpa using hx, by simpa using fun _ => hm, by simpa [hne] using htop,
        by simpa [hch] using hcmp, hdir q hd⟩
  case running =>
    by_cases he : ch.timer = t
    · subst he
      exact ⟨divide s.platform f.toNat, by simp, hthree, by simpa using hwidth,
        by simpa using ⟨slopeTicks_pos s.platform.slope, Nat.lt_of_lt_of_le (by decide) hthree⟩⟩
    · simpa [he] using hi.running t (by simpa [he] using ht)
  case stopped =>
    have he : ch.timer ≠ t := by
      rintro rfl
      simp at ht
    simpa [he] using hi.stopped t (by simpa [he] using ht)
  case compares =>
    by_cases he : ch = x
    · subst he
      simp only [cmpAt_commitConfigure, if_true, Option.some.injEq, compareOf_eq] at hc
      simp only [commitConfigure_platform, modeAt_commitConfigure, if_true, and_true]
      omega
    · obtain ⟨hpos, hle, hm⟩ := hi.compares x c (by simpa [he] using hc)
      exact ⟨hpos, by simpa using hle, by simp [hm]⟩
  case enabled =>
    have he : ch ≠ x := by
      rintro rfl
      simp at hx
    obtain ⟨k, q, c, hq, hchan, hcmp, hd⟩ := hi.enabled x (by simpa [he] using hx)
    exact ⟨k, q, c, by simpa using hq, by simpa using hchan, by simpa [he] using hcmp, hdir q hd⟩
  case driven =>
    by_cases he : p = q
    · exact ⟨h.toNat, by simpa [he] using hp.pin⟩
    · simpa using hi.driven q (by simpa [he] using hq)

/-! ### The gates -/

/-- Gates write `EN` and `TRACE` alone: the gates' last bit on the channel, and their events. -/
theorem gates_eq (h : Nat) (p : PinId) (ch : Chan) (gs : List (WaitKind × Nat)) (s : State) :
    gates h p ch gs s =
      { s with en := (gates h p ch gs s).en, trace := s.trace ++ gateEvents s.cpc h p gs } := by
  induction gs generalizing s with
  | nil => simp [gates, gateEvents]
  | cons g gs ih =>
    rw [gates, ih]
    simp [gate, State.setEn, State.addEvent, gateEvents]

theorem gates_en_wf (h : Nat) (p : PinId) (ch : Chan) (gs : List (WaitKind × Nat)) {s : State}
    (hs : regWf chanLt false s.en) : regWf chanLt false (gates h p ch gs s).en := by
  induction gs generalizing s with
  | nil => exact hs
  | cons g gs ih => exact ih (regSet_wf chanLt_order hs _ _)

/-- A gating command that goes through: a channel that its gates leave on is the one of the handle's driven pin, and its
events are of this command. -/
theorem State.Inv.retire_gates {s : State} (hi : s.Inv) (hlt : s.cpc < s.stream.length) (hf : s.fault = none)
    {h : HandleField} {p : PinId} {ch : Chan} (hp : Passes s h p ch) (gs : List (WaitKind × Nat)) :
    (Machine.retireWith .ok 0 (gates h.toNat p ch gs s)).Inv := by
  have hr := hi.retireWith hlt hf .ok 0
  have hwf := gates_en_wf h.toNat p ch gs (s := s)
  have hen := enAt_gates h.toNat p ch gs s
  rw [gates_eq] at hen ⊢
  exact
    { hr with
      canonical := by
        obtain ⟨hbound, hpin, hcfg, hmode, htop, hphase, hcmp, hen, hrest⟩ := hr.canonical
        exact ⟨hbound, hpin, hcfg, hmode, htop, hphase, hcmp, hwf hen, hrest⟩
      enabled := fun x hx => by
        by_cases he : ch = x
        · obtain ⟨y, top, hy, -, -, hcmp, hd⟩ := hi.configured _ _ hp.cfg hp.pin
          cases hp.chan.symm.trans hy
          exact ⟨h.toNat, p, _, hp.pin, he ▸ hp.chan, he ▸ hcmp, hd⟩
        · exact hi.enabled x (by simpa [he] using (hen x).symm.trans hx)
      traced := fun e he => by
        rcases List.mem_append.mp he with he | he
        · exact hr.traced e he
        · obtain ⟨g, -, rfl⟩ := List.mem_map.mp he
          exact ⟨Nat.lt_succ_self _, hp.pin, rfl, rfl⟩ }

/-! ### Commands and steps -/

/-- Every end of a command whose word the host has written keeps the invariant. -/
theorem Ends.keeps_inv {i : Instr} {s t : State} (he : Ends s i t) (hi : s.Inv) (hlt : s.cpc < s.stream.length)
    (hf : s.fault = none) : t.Inv := by
  cases he with
  | reported _ e => exact hi.retireWith hlt hf e 0
  | raisedMark => exact hi.raise _
  | raisedSpace => exact hi.raise _
  | raisedSendByte => exact hi.raise _
  | bound h p hp => exact (hi.commitBind hp).retireWith hlt hf .ok 0
  | configured h f p ch hp =>
    exact (hi.commitConfigure hp).retireWith (by simpa using hlt) (by simpa using hf) .ok 0
  | marked h d p ch hp => exact hi.retire_gates hlt hf hp [(.mark, d.toNat)]
  | spaced h d p ch hp => exact hi.retire_gates hlt hf hp [(.space, d.toNat)]
  | sent h v m z o p ch hp => exact hi.retire_gates hlt hf hp _
  | reversed v => exact hi.retireWith hlt hf .ok (rev8 v)

/-- Settles O4: a step takes its turn, and then waits, ticks, reports an illegal word or ends a command. -/
theorem stepKeepsInvariant : Obligations.StepKeepsInvariant := by
  intro s t hi hst
  have hi' := hi.setTurns (turnsLeft s)
  obtain ⟨-, hs⟩ := step_steps hst
  cases hs with
  | idleTick => exact hi'
  | ticked k top hh hm htop hz => exact hi'.setPhase hm htop (Nat.mod_lt _ (Nat.pos_of_ne_zero hz))
  | waits => exact hi'
  | illegal w r hh hf hw => exact hi'.retireWith (lt_length_of_fetch hw) hf _ 0
  | executed w i _ hh hf hw hd he => exact he.keeps_inv hi' (lt_length_of_fetch hw) hf

end Sys2Proof.Machine
end

section
/-! PROOFS. The enable bit of a configured handle follows its last gate (R127). A step changes the enable bit of a configured
handle's channel only by the gates of that handle, for no two pins share a channel and no two handles a pin. -/

namespace Sys2Proof.Machine

/-! ### The last gate -/

theorem lastGate_gateEvents_of_ne {idx h k : Nat} (hne : h ≠ k) (p : PinId) (gs : List (WaitKind × Nat)) :
    lastGate k (gateEvents idx h p gs) = none := by
  induction gs with
  | nil => rfl
  | cons g gs ih =>
    rw [gateEvents, List.map_cons, ← gateEvents, lastGate, ih]
    exact if_neg hne

/-- The last gate that a handle's gates record is a `MARK` exactly when they leave the enable bit 1. -/
theorem lastGate_gateEvents (idx h : Nat) (p : PinId) (b : Bool) {gs : List (WaitKind × Nat)} (hgs : gs ≠ []) :
    ∃ k, lastGate h (gateEvents idx h p gs) = some k ∧ lastBit b gs = (k == .mark) := by
  induction gs generalizing b with
  | nil => exact absurd rfl hgs
  | cons g gs ih =>
    rw [gateEvents, List.map_cons, ← gateEvents, lastGate]
    by_cases hnil : gs = []
    · subst hnil
      exact ⟨g.1, if_pos rfl, rfl⟩
    · obtain ⟨k, hk, hb⟩ := ih (g.1 == .mark) hnil
      exact ⟨k, by rw [hk], hb⟩

/-- A step that is no `CONFIGURE` sets the last gate from the events that it appends. -/
theorem gateAfter_of_not_configure {s t : State} {evs : List Event} (ht : t.trace = s.trace ++ evs)
    (hx : ∀ h f, s.executes ≠ some (.configure h f)) (k : Nat) (g : Option WaitKind) :
    gateAfter s t k g = (lastGate k evs).or g := by
  have hdrop : t.trace.drop s.trace.length = evs := by rw [ht, List.drop_left]
  unfold gateAfter
  rw [hdrop]
  split
  · next h f he => exact absurd he (hx h f)
  · split
    · next hk => rw [hk, Option.some_or]
    · next hk => rw [hk, Option.none_or]

theorem gateAfter_of_quiet {s t : State} (hx : ∀ h f, s.executes ≠ some (.configure h f)) (ht : t.trace = s.trace)
    (g : Nat → Option WaitKind) : (fun k => gateAfter s t k (g k)) = g :=
  funext fun k => by
    rw [gateAfter_of_not_configure (evs := []) (by simpa using ht) hx]
    rfl

theorem gateAfter_of_configure {s t : State} {h : HandleField} {f : BitVec 32} (hx : s.executes = some (.configure h f))
    (k : Nat) (g : Option WaitKind) :
    gateAfter s t k g = if h.toNat = k ∧ t.resp.status = 0 ∧ t.cpc = s.cpc + 1 then none else g := by
  unfold gateAfter
  rw [hx]

/-! ### The steps -/

/-- A step that writes none of the registers that the match speaks of, and appends no event, keeps it. -/
theorem EnMatches.of_same {s t : State} {g g' : Nat → Option WaitKind} (hm : EnMatches s g) (hg : g' = g)
    (hcfg : ∀ k, t.cfgAt k = true → s.cfgAt k = true ∧ t.pinAt k = s.pinAt k) (hplatform : t.platform = s.platform)
    (hen : ∀ x, t.enAt x = s.enAt x) : EnMatches t g' := by
  intro k p ch hk hp hch
  obtain ⟨hk, hpin⟩ := hcfg k hk
  rw [hen, hg]
  exact hm k p ch hk (hpin ▸ hp) (hplatform ▸ hch)

/-- So does such a step that is no `CONFIGURE`. -/
theorem EnMatches.of_quiet {s t : State} {g : Nat → Option WaitKind} (hm : EnMatches s g)
    (hx : ∀ h f, s.executes ≠ some (.configure h f)) (htrace : t.trace = s.trace)
    (hcfg : ∀ k, t.cfgAt k = true → s.cfgAt k = true ∧ t.pinAt k = s.pinAt k) (hplatform : t.platform = s.platform)
    (hen : ∀ x, t.enAt x = s.enAt x) : EnMatches t fun k => gateAfter s t k (g k) :=
  hm.of_same (gateAfter_of_quiet hx htrace g) hcfg hplatform hen

/-- The gates of handle `h` set its own enable bit, and that of no other configured handle. -/
theorem EnMatches.of_gates {s : State} {g : Nat → Option WaitKind} (hm : EnMatches s g) (hi : s.Inv)
    (hwf : s.platform.wf = true) (hx : ∀ h f, s.executes ≠ some (.configure h f)) {h : HandleField} {p : PinId}
    {ch : Chan} (hp : Passes (s.setTurns (turnsLeft s)) h p ch) {gs : List (WaitKind × Nat)} (hgs : gs ≠ []) {t : State}
    (ht : t = retireWith .ok 0 (gates h.toNat p ch gs (s.setTurns (turnsLeft s)))) :
    EnMatches t fun k => gateAfter s t k (g k) := by
  intro k q x hk hq hch
  have htrace : t.trace = s.trace ++ gateEvents s.cpc h.toNat p gs := by rw [ht, retireWith_trace, gates_trace]; rfl
  have hg := gateAfter_of_not_configure htrace hx k (g k)
  simp only [hg]
  subst ht
  simp only [cfgAt_retireWith, cfgAt_gates, pinAt_retireWith, pinAt_gates, retireWith_platform, gates_platform,
    enAt_retireWith, enAt_gates] at hk hq hch ⊢
  by_cases hhk : h.toNat = k
  · subst hhk
    cases hp.pin.symm.trans hq
    cases hp.chan.symm.trans hch
    obtain ⟨kind, hlast, hbit⟩ := lastGate_gateEvents s.cpc h.toNat p (s.enAt ch) hgs
    rw [if_pos rfl, hlast, State.enAt_setTurns, hbit, Option.some_or]
    cases kind <;> rfl
  · have hne : ch ≠ x := by
      rintro rfl
      exact hhk (hi.pinsDistinct _ _ p hp.pin (chanOf_injective hwf hp.chan hch ▸ hq))
    rw [if_neg hne, lastGate_gateEvents_of_ne hhk, Option.none_or]
    exact hm k q x hk hq hch

/-- `CONFIGURE` clears the enable bit and the last gate of its handle; every handle that it leaves configured beside it is
on another timer. -/
theorem EnMatches.of_configure {s : State} {g : Nat → Option WaitKind} (hm : EnMatches s g) (hi : s.Inv)
    {h : HandleField} {f : BitVec 32} (hx : s.executes = some (.configure h f)) {p : PinId} {ch : Chan}
    (hp : ConfigurePasses (s.setTurns (turnsLeft s)) h f p ch) {t : State}
    (ht : t = retireWith .ok 0 (commitConfigure h.toNat p ch f.toNat (s.setTurns (turnsLeft s)))) :
    EnMatches t fun k => gateAfter s t k (g k) := by
  intro k q x hk hq hch
  have hg : gateAfter s t k (g k) = if h.toNat = k then none else g k := by simp [gateAfter_of_configure hx, ht]
  simp only [hg]
  subst ht
  simp only [cfgAt_retireWith, pinAt_retireWith, pinAt_commitConfigure, retireWith_platform, commitConfigure_platform,
    enAt_retireWith, enAt_commitConfigure] at hk hq hch ⊢
  rcases (hi.setTurns _).cfgAt_commitConfigure_cases hk hq with rfl | ⟨hhk, hcfg, htimer⟩
  · cases hp.pin.symm.trans hq
    cases hp.chan.symm.trans hch
    rw [if_pos rfl, if_pos rfl]
    rfl
  · have hne : ch ≠ x := fun he => htimer x hch (he ▸ rfl)
    rw [if_neg hne, if_neg hhk]
    exact hm k q x hcfg hq hch

/-- A reported error changes no last gate: not even a `CONFIGURE`'s, whose status is then not 0. -/
theorem gateAfter_of_reported {s : State} {e : Status} (he : e ≠ .ok) (ts : List Turn) (g : Nat → Option WaitKind) :
    (fun k => gateAfter s (retireWith e 0 (s.setTurns ts)) k (g k)) = g := by
  by_cases hc : ∃ h f, s.executes = some (.configure h f)
  · obtain ⟨h, f, hx⟩ := hc
    funext k
    rw [gateAfter_of_configure hx]
    exact if_neg fun ⟨_, hst, _⟩ => he (statusCode_eq_zero hst)
  · exact gateAfter_of_quiet (t := retireWith e 0 (s.setTurns ts)) (fun h f hx => hc ⟨h, f, hx⟩) rfl g

/-- The match is kept by every end of the command that a step executes. -/
theorem EnMatches.of_ends {s t : State} {g : Nat → Option WaitKind} (hm : EnMatches s g) (hi : s.Inv)
    (hwf : s.platform.wf = true) {i : Instr} (hx : s.executes = some i) (he : Ends (s.setTurns (turnsLeft s)) i t) :
    EnMatches t fun k => gateAfter s t k (g k) := by
  cases he with
  | reported _ e hne => exact hm.of_same (gateAfter_of_reported hne _ g) (fun _ hk => ⟨hk, rfl⟩) rfl fun _ => rfl
  | raisedMark => exact hm.of_quiet (by simp [hx]) rfl (fun _ hk => ⟨hk, rfl⟩) rfl fun _ => rfl
  | raisedSpace => exact hm.of_quiet (by simp [hx]) rfl (fun _ hk => ⟨hk, rfl⟩) rfl fun _ => rfl
  | raisedSendByte => exact hm.of_quiet (by simp [hx]) rfl (fun _ hk => ⟨hk, rfl⟩) rfl fun _ => rfl
  | bound h p hp =>
    refine hm.of_quiet (by simp [hx]) rfl (fun k hk => ?_) rfl fun _ => rfl
    have hne : h.toNat ≠ k := by
      rintro rfl
      simp at hk
    exact ⟨by simpa [hne] using hk, by simp [hne]⟩
  | configured h f p ch hp => exact hm.of_configure hi hx hp rfl
  | marked h d p ch hp => exact hm.of_gates hi hwf (by simp [hx]) hp (gs := [(.mark, d.toNat)]) (by simp) rfl
  | spaced h d p ch hp => exact hm.of_gates hi hwf (by simp [hx]) hp (gs := [(.space, d.toNat)]) (by simp) rfl
  | sent h v m z o p ch hp => exact hm.of_gates hi hwf (by simp [hx]) hp (by simp [byteGates, serialize]) rfl
  | reversed => exact hm.of_quiet (by simp [hx]) rfl (fun _ hk => ⟨hk, rfl⟩) rfl fun _ => rfl

/-- Settles O45: after reset no handle is configured; a step that executes no command writes neither `EN` nor `TRACE`, and
every end of a command keeps the match. -/
theorem enableFollowsLastGate : Obligations.EnableFollowsLastGate := by
  refine ⟨fun P ws ts h p ch hc => by simp at hc, fun s t g hi hm hst => ?_⟩
  obtain ⟨hwf, hs⟩ := step_steps hst
  cases hs with
  | idleTick k hh =>
    exact hm.of_quiet (by simp [executes_of_tick hh]) rfl (fun _ hk => ⟨hk, rfl⟩) rfl fun _ => rfl
  | ticked k top hh =>
    exact hm.of_quiet (by simp [executes_of_tick hh]) rfl (fun _ hk => ⟨hk, rfl⟩) rfl fun _ => rfl
  | waits hh hf hw =>
    exact hm.of_quiet (by simp [executes_of_wait hw]) rfl (fun _ hk => ⟨hk, rfl⟩) rfl fun _ => rfl
  | illegal => exact hm.of_same (gateAfter_of_reported (by decide) _ g) (fun _ hk => ⟨hk, rfl⟩) rfl fun _ => rfl
  | executed w i _ hh hf hw hd he => exact hm.of_ends hi hwf (executes_of_command hh hf hw hd) he

end Sys2Proof.Machine
end

section
/-! PROOFS. The decoder and the encoder are inverse to each other (R82), which words are illegal (R79, R80), and the
assembler's lines (R83). A word is read by the digits of its number. -/

namespace Sys2Proof

/-! ### Decoding an encoded command -/

theorem decode_encode (i : Instr) : decode (encode i) = .ok i := by
  cases i with
  | bind h p => exact decode_encode_bind h p
  | configure h f => exact decode_encode_configure h f
  | mark h d => exact decode_encode_mark h d
  | space h d => exact decode_encode_space h d
  | sendByte h v m z o => exact decode_encode_sendByte h v m z o
  | reverseBits v => exact decode_encode_reverseBits v

/-! ### Encoding a decoded word -/

theorem handleField_toNat (w : Word) : (handleField w).toNat = w.toNat / 2 ^ 56 % 2 ^ 4 := bits_toNat w 56 4

/-- A word that passes the check of its reserved bits is the word of the format's command, when the command's number
is the word's for reserved bits 0. -/
theorem encode_of_ifReservedZero {w : Word} {n : Nat} {i j : Instr}
    (h : ifReservedZero (decide (n = 0)) i = .ok j) (hn : n = 0 → (encode i).toNat = w.toNat) : encode j = w := by
  obtain ⟨hres, rfl⟩ := ifReservedZero_eq_ok.mp h
  exact BitVec.eq_of_toNat_eq (hn (of_decide_eq_true hres))

theorem encode_of_decode {w : Word} {i : Instr} (h : decode w = .ok i) : encode i = w := by
  rw [decode_toNat] at h
  split at h
  · refine encode_of_ifReservedZero h fun hres => ?_
    rw [encode_bind_toNat, handleField_toNat, bits_toNat]
    omega
  split at h
  · refine encode_of_ifReservedZero h fun hres => ?_
    rw [encode_configure_toNat, handleField_toNat, bits_toNat]
    omega
  split at h
  · refine encode_of_ifReservedZero h fun hres => ?_
    rw [encode_mark_toNat, handleField_toNat, bits_toNat]
    omega
  split at h
  · refine encode_of_ifReservedZero h fun hres => ?_
    rw [encode_space_toNat, handleField_toNat, bits_toNat]
    omega
  split at h
  · cases h
    refine BitVec.eq_of_toNat_eq ?_
    rw [encode_sendByte_toNat, handleField_toNat, bits_toNat, bits_toNat, bits_toNat, bits_toNat]
    omega
  split at h
  · refine encode_of_ifReservedZero h fun hres => ?_
    rw [encode_reverseBits_toNat, bits_toNat]
    omega
  · cases h

/-! ### The illegal words -/

theorem ifReservedZero_eq_error {n : Nat} {i : Instr} {e : DecodeError} :
    ifReservedZero (decide (n = 0)) i = .error e ↔ n ≠ 0 ∧ e = .reservedBits := by
  by_cases hn : n = 0 <;> simp [ifReservedZero, hn, eq_comm]

/-- The decoder's two errors, by the digits of the word: the opcode is reserved, or it is legal and the reserved field of
its format is not 0. -/
theorem decode_eq_error_iff (w : Word) (e : DecodeError) :
    decode w = .error e ↔
      (e = .reservedOpcode ∧ (w.toNat / 2 ^ 60 = 0 ∨ 7 ≤ w.toNat / 2 ^ 60)) ∨
      (e = .reservedBits ∧
        ((w.toNat / 2 ^ 60 = 1 ∧ w.toNat / 2 ^ 16 % 2 ^ 40 ≠ 0) ∨
          (2 ≤ w.toNat / 2 ^ 60 ∧ w.toNat / 2 ^ 60 ≤ 4 ∧ w.toNat / 2 ^ 32 % 2 ^ 24 ≠ 0) ∨
          (w.toNat / 2 ^ 60 = 6 ∧ w.toNat / 2 ^ 8 % 2 ^ 52 ≠ 0))) := by
  rw [decode_toNat]
  generalize w.toNat / 2 ^ 60 = op
  split
  · next hop => simp [ifReservedZero_eq_error, hop, and_comm]
  split
  · next hop => simp [ifReservedZero_eq_error, hop, and_comm]
  split
  · next hop => simp [ifReservedZero_eq_error, hop, and_comm]
  split
  · next hop => simp [ifReservedZero_eq_error, hop, and_comm]
  split
  · next hop => simp [hop]
  split
  · next hop => simp [ifReservedZero_eq_error, hop, and_comm]
  · have hreserved : op = 0 ∨ 7 ≤ op := by omega
    have hnot : ¬(2 ≤ op ∧ op ≤ 4) := by omega
    simp_all [eq_comm, ← and_assoc]

end Sys2Proof

namespace Sys2Proof.Machine

/-- Settles O16: each command's fields are found again in the digits of its word. -/
theorem decodeOfEncode : Obligations.DecodeOfEncode := decode_encode

/-- Settles O17: a word with an opcode and reserved bits 0 is the sum of its fields. -/
theorem encodeOfDecode : Obligations.EncodeOfDecode := fun _ _ => encode_of_decode

/-- Settles O19: the decoder has two errors, and `partialWord` is neither. -/
theorem illegalWords : Obligations.IllegalWords := fun w =>
  ⟨by simp [decode_eq_error_iff], by simp [decode_eq_error_iff], by simp [decode_eq_error_iff]⟩

/-- Settles O15: each word is one of the formats, with the digits of its operands in place. -/
theorem specWordsDecode : Obligations.SpecWordsDecode := by
  refine ⟨decode_encode (.bind 0 3), decode_encode (.configure 0 38000), decode_encode (.mark 2 100),
    decode_encode (.space 0 4294967295), decode_encode (.sendByte 0 5 500 500 1500),
    decode_encode (.reverseBits 0xC4), ?_, ?_⟩
  · decide
  · decide

/-! ### The assembler -/

/-- An operand of a line is its field, when it fits. -/
theorem ofNat_toNat_of_fits {x n : Nat} (h : x < 2 ^ n) : (BitVec.ofNat n x).toNat = x := by
  rw [BitVec.toNat_ofNat, Nat.mod_eq_of_lt h]

/-- Settles O57: a line whose operands fit assembles to the word of its command, and an operand that does not fit fails
the line's check. -/
theorem assembledWordsDecode : Obligations.AssembledWordsDecode := by
  refine ⟨fun _ => assemble_of_not_wf, fun h p hh hp => ?_, fun h f hh hf => ?_, fun h d hh hd => ?_, fun h d hh hd => ?_,
    fun h v m z o hh hv hm hz ho => ?_, fun v hv => ?_, fun h p hbad => ?_, fun h f hbad => ?_, fun h d hbad => ?_,
    fun h d hbad => ?_, fun h v m z o hbad => ?_, fun v hbad => ?_⟩
  · exact ⟨_, _, _, assemble_of_wf (by simp [AsmLine.wf, fitsField]; omega), decode_encode _,
      ofNat_toNat_of_fits hh, ofNat_toNat_of_fits hp⟩
  · exact ⟨_, _, _, assemble_of_wf (by simp [AsmLine.wf, fitsField]; omega), decode_encode _,
      ofNat_toNat_of_fits hh, ofNat_toNat_of_fits hf⟩
  · exact ⟨_, _, _, assemble_of_wf (by simp [AsmLine.wf, fitsField]; omega), decode_encode _,
      ofNat_toNat_of_fits hh, ofNat_toNat_of_fits hd⟩
  · exact ⟨_, _, _, assemble_of_wf (by simp [AsmLine.wf, fitsField]; omega), decode_encode _,
      ofNat_toNat_of_fits hh, ofNat_toNat_of_fits hd⟩
  · exact ⟨_, _, _, _, _, _, assemble_of_wf (by simp [AsmLine.wf, fitsField]; omega), decode_encode _,
      ofNat_toNat_of_fits hh, ofNat_toNat_of_fits hv, ofNat_toNat_of_fits hm, ofNat_toNat_of_fits hz,
      ofNat_toNat_of_fits ho⟩
  · exact ⟨_, _, assemble_of_wf (by simp [AsmLine.wf, fitsField]; omega), decode_encode _, ofNat_toNat_of_fits hv⟩
  · exact assemble_of_not_wf (by simp [AsmLine.wf, fitsField]; omega)
  · exact assemble_of_not_wf (by simp [AsmLine.wf, fitsField]; omega)
  · exact assemble_of_not_wf (by simp [AsmLine.wf, fitsField]; omega)
  · exact assemble_of_not_wf (by simp [AsmLine.wf, fitsField]; omega)
  · exact assemble_of_not_wf (by simp [AsmLine.wf, fitsField]; omega)
  · exact assemble_of_not_wf (fitsField_of_le hbad)

end Sys2Proof.Machine
end

section
/-! PROOFS. The well-formed platform and its lookups (R6, R106), what a step answers (R22, R34, R37, R172, R191), the ticks
of a timer (R34), and the reads of registers that hold no value (R39). -/

namespace Sys2Proof.Machine

/-! ### The platform -/

/-- The checks of a platform in the terms of R6 and R106. -/
theorem wf_iff (P : Platform) : P.wf = true ↔
    0 < P.fClk ∧ 1 ≤ P.numHandles ∧ P.numHandles ≤ 16 ∧
    (P.timers.map TimerDesc.id).Nodup ∧ (∀ d ∈ P.timers, d.channels.Nodup) ∧ (∀ d ∈ P.timers, 2 ≤ d.width) ∧
    (P.pinMap.map Prod.fst).Nodup ∧
    (∀ p ch, (p, ch) ∈ P.pinMap → ∃ d ∈ P.timers, d.id = ch.timer ∧ ch.channel ∈ d.channels) ∧
    (P.pinMap.map Prod.snd).Nodup := by
  simp [Platform.wf, Platform.clockOk, Platform.handlesOk, Platform.timersOk, Platform.channelsOk, Platform.widthsOk,
    Platform.pinsOk, Platform.entriesOk, Platform.injectiveOk, and_assoc]

/-- In a function's list of entries no value stands twice exactly when no two arguments share one (R106 (b)). -/
theorem nodup_snd_iff {es : List (PinId × Chan)} (hd : (es.map Prod.fst).Nodup) :
    (es.map Prod.snd).Nodup ↔ ∀ p q ch, (p, ch) ∈ es → (q, ch) ∈ es → p = q := by
  rw [List.nodup_map_iff_inj_on hd.of_map]
  constructor
  · intro h p q ch hp hq
    exact congrArg Prod.fst (h _ hp _ hq rfl)
  · rintro h ⟨p, ch⟩ hp ⟨q, ch'⟩ hq he
    cases he
    rw [h p q ch hp hq]

theorem chanOf_eq_some_iff {P : Platform} (hd : (P.pinMap.map Prod.fst).Nodup) (p : PinId) (ch : Chan) :
    chanOf P p = some ch ↔ (p, ch) ∈ P.pinMap :=
  ⟨lookupPin_mem, lookupPin_of_mem hd⟩

/-- The first timer with the id of `d` is `d`, for no id stands twice. -/
theorem timerWidth_eq {P : Platform} (hd : (P.timers.map TimerDesc.id).Nodup) {d : TimerDesc} (h : d ∈ P.timers) :
    timerWidth P d.id = d.width := by
  unfold timerWidth
  split
  · next d' hfind =>
    have hid : d'.id = d.id := by simpa using List.find?_some hfind
    rw [List.inj_on_of_nodup_map hd (List.mem_of_find?_eq_some hfind) h hid]
  · next hfind => simpa using List.find?_eq_none.mp hfind d h

/-- Settles O8: the checks one by one; that of `injectiveOk` on a `PIN_MAP` that is a function. -/
theorem wellFormedPlatformMeaning : Obligations.WellFormedPlatformMeaning := by
  intro P
  rw [wf_iff]
  refine ⟨?_, fun ⟨_, _, _, htimers, _, _, hpins, _⟩ => ⟨chanOf_eq_some_iff hpins, fun d => timerWidth_eq htimers⟩⟩
  constructor
  · rintro ⟨hclk, hlo, hhi, htimers, hchans, hwidths, hpins, hentries, hinj⟩
    exact ⟨hclk, hlo, hhi, htimers, hchans, hwidths, hpins, hentries, (nodup_snd_iff hpins).mp hinj⟩
  · rintro ⟨hclk, hlo, hhi, htimers, hchans, hwidths, hpins, hentries, hinj⟩
    exact ⟨hclk, hlo, hhi, htimers, hchans, hwidths, hpins, hentries, (nodup_snd_iff hpins).mpr hinj⟩

/-! ### What a step answers -/

theorem tick_ne_refused (k : Nat) (s : State) (r : Refusal) : tick k s ≠ .refused r := by
  unfold tick
  repeat' split
  all_goals exact nofun

theorem commandStep_ne_refused (s : State) (r : Refusal) : commandStep s ≠ .refused r := by
  unfold commandStep
  split
  · exact nofun
  split
  · exact nofun
  split
  · exact exec_ne_refused _ s r
  · exact nofun

/-- The turn of a step: the sequencer's, or a timer's. -/
theorem turn_cases (s : State) :
    s.turns.head?.getD .command = .command ∨ ∃ k, s.turns = .tick k :: turnsLeft s := by
  unfold turnsLeft
  cases s.turns with
  | nil => exact .inl rfl
  | cons x ts =>
    cases x with
    | command => exact .inl rfl
    | tick k => exact .inr ⟨k, rfl⟩

/-- Settles O7: neither the sequencer's step nor a tick refuses anything. -/
theorem illFormedPlatformIsRefused : Obligations.IllFormedPlatformIsRefused := by
  intro s
  refine ⟨fun hp => by simp [step, hp], fun hp r => ?_⟩
  rcases turn_cases s with hh | ⟨k, hh⟩
  · rw [step_of_command hp hh]
    exact commandStep_ne_refused _ r
  · rw [step_of_tick hp hh]
    exact tick_ne_refused k _ r

/-- Settles O9: the sequencer's step, once the turn is taken, is exec of the decoded command. -/
theorem stepRunsDecodedCommand : Obligations.StepRunsDecodedCommand := by
  intro s w i hp hf hw hd
  have hstep (hh : s.turns.head?.getD .command = .command) : step s = exec i (s.setTurns (turnsLeft s)) :=
    (step_of_command hp hh).trans (commandStep_executes hf hw hd)
  refine ⟨fun hts => ?_, fun ts hts => ?_⟩
  · rw [hstep (by simp [hts]), turnsLeft, hts, List.tail_nil, ← hts, setTurns_self]
  · rw [hstep (by simp [hts]), turnsLeft, hts, List.tail_cons]
    rfl

/-- Settles O11: no word stands at `cpc`, so the sequencer waits. -/
theorem blockWaitsForTheHost : Obligations.BlockWaitsForTheHost := by
  intro s hp hf hh hlen
  rw [step_of_command hp hh]
  exact commandStep_waits hf (List.getElem?_eq_none_iff.mpr hlen)

/-- The sequencer's turn in the faulted state (R172). -/
theorem step_of_faulted {s : State} (hp : s.platform.wf = true) (hf : s.fault ≠ none)
    (hh : s.turns.head?.getD .command = .command) : step s = .fault .blockStopped := by
  rw [step_of_command hp hh]
  exact commandStep_faulted hf

/-- A timer's turn while its timer runs. -/
theorem step_of_running {s : State} {k top : Nat} {ts : List Turn} (hp : s.platform.wf = true)
    (hh : s.turns = .tick k :: ts) (hm : s.modeAt k = .carrier) (htop : s.topAt k = some top) (hpos : 0 < top) :
    step s = .next
      ((s.setTurns ts).setPhase k ((s.phaseAt k + 1) % (slopeTicks s.platform.slope * top))) := by
  rw [step_of_tick hp hh]
  exact tick_running (s := s.setTurns ts) hm htop (Nat.mul_pos (slopeTicks_pos _) hpos).ne'

/-- A step of a faulted block is a tick, which writes `PHASE` alone. -/
theorem step_of_faulted_frame {s t : State} (hf : s.fault ≠ none) (hst : step s = .next t) :
    t = { s with turns := t.turns, phase := t.phase } := by
  obtain ⟨-, hs⟩ := step_steps hst
  cases hs with
  | idleTick => rfl
  | ticked => rfl
  | waits _ hf' => exact absurd hf' hf
  | illegal _ _ _ hf' => exact absurd hf' hf
  | executed _ _ _ _ hf' => exact absurd hf' hf

/-- Settles O12: in the faulted state the sequencer stops the machine, and only ticks answer a next state. -/
theorem faultedBlockExecutesNothing : Obligations.FaultedBlockExecutesNothing := fun _ hp hf =>
  ⟨step_of_faulted hp hf, fun _ => step_of_faulted_frame hf,
    fun _ _ _ hh hm htop hpos => ⟨_, step_of_running hp hh hm htop hpos⟩⟩

/-! ### The ticks -/

/-- Settles O13: a timer's turn is its tick, which writes its own phase. -/
theorem tickAdvancesPhase : Obligations.TickAdvancesPhase := by
  intro s k ts hp hh
  refine ⟨fun hm => ?_, fun top hm htop hpos => ⟨_, step_of_running hp hh hm htop hpos, rfl, fun j => ?_, rfl⟩⟩
  · rw [step_of_tick hp hh]
    exact tick_stopped (s := s.setTurns ts) hm
  · simp [eq_comm]

/-- Settles O14, by induction on the number of ticks: each advances the phase by one within the period. -/
theorem ticksRepeatAfterOnePeriod : Obligations.TicksRepeatAfterOnePeriod := by
  intro s k top n hm htop hpos hph
  induction n generalizing s with
  | zero => exact ⟨s, rfl, (Nat.mod_eq_of_lt hph).symm, fun _ _ => rfl, rfl⟩
  | succ n ih =>
    have hperiod := Nat.mul_pos (slopeTicks_pos s.platform.slope) hpos
    obtain ⟨t, ht, hphase, hother, hframe⟩ :=
      ih (s.setPhase k ((s.phaseAt k + 1) % (slopeTicks s.platform.slope * top))) hm htop
        (by simpa using Nat.mod_lt _ hperiod)
    refine ⟨t, ?_, ?_, fun j hj => ?_, hframe⟩
    · rw [ticks, tick_running hm htop hperiod.ne']
      exact ht
    · rw [hphase]
      simp [Nat.add_assoc, Nat.add_comm 1 n]
    · rw [hother j hj]
      simp [hj.symm]

/-! ### Reads of registers that hold no value -/

theorem pinsWritten_eq_false {s : State} {h : Nat} (hr : h < s.platform.numHandles) (hb : s.boundAt h = true)
    (hp : s.pinAt h = none) : s.pinsWritten = false := by
  rw [Bool.eq_false_iff, ne_eq, pinsWritten_iff]
  intro hall
  obtain ⟨p, hp'⟩ := hall h hr hb
  cases hp.symm.trans hp'

/-- The shared checks read the pin of a configured handle. -/
theorem gated_unwrittenPin {s : State} {h : HandleField} (hr : h.toNat < s.platform.numHandles)
    (hb : s.boundAt h.toNat = true) (hc : s.cfgAt h.toNat = true) (hp : s.pinAt h.toNat = none)
    (act : PinId → Chan → State → State) : gated h act s = .fault .unwrittenPin := by
  unfold gated
  simp [(badHandle_false_iff s h).mpr hr, hb, hc, hp]

theorem gated_unmappedPin {s : State} {h : HandleField} {p : PinId} (hr : h.toNat < s.platform.numHandles)
    (hb : s.boundAt h.toNat = true) (hc : s.cfgAt h.toNat = true) (hp : s.pinAt h.toNat = some p)
    (hch : chanOf s.platform p = none) (act : PinId → Chan → State → State) : gated h act s = .fault .unmappedPin := by
  unfold gated
  simp [(badHandle_false_iff s h).mpr hr, hb, hc, hp, hch]

/-- Settles O30: every gating command reads the mapping of its handle's pin. -/
theorem unmappedGateStops : Obligations.UnmappedGateStops := by
  intro i h p s hg hi hr hb hc hp hch
  obtain ⟨act, hact⟩ := exec_eq_gated hg hi s
  rw [hact, gated_unmappedPin hr hb hc hp hch]

/-- Settles O6: each read of a register without a value is a case of the operation that reads it. -/
theorem unwrittenReadsFault : Obligations.UnwrittenReadsFault := by
  intro s
  refine ⟨fun h hr hb hp => ⟨fun f => ?_, fun k hk hfree p => ?_, fun hc => ⟨fun d => ?_, fun d => ?_, fun v m z o => ?_⟩⟩,
    fun t hm htop => ?_, fun p ch hd hch hen hm => ⟨fun hcmp => ?_, fun c hcmp hsl htop => ?_⟩⟩
  · simp [exec_configure, execConfigure, (badHandle_false_iff s h).mpr hr, hb, hp]
  · simp [exec_bind, execBind, (badHandle_false_iff s k).mpr hk, hfree, pinsWritten_eq_false hr hb hp]
  · rw [exec_mark, gated_unwrittenPin hr hb hc hp]
  · rw [exec_space, gated_unwrittenPin hr hb hc hp]
  · rw [exec_sendByte, gated_unwrittenPin hr hb hc hp]
  · simp [tick, hm, htop]
  · simp [pinOut, hd, hch, hen, hm, carrierLevel, hcmp, Except.map]
  · simp [pinOut, hd, hch, hen, hm, carrierLevel, hcmp, hsl, htop, Except.map]

/-! ### No such read from a state that meets the invariant -/

/-- A bound handle of a state that meets the invariant holds a pin (R24). -/
theorem State.Inv.pinAt_of_bound {s : State} (hi : s.Inv) {h : Nat} (hb : s.boundAt h = true) :
    ∃ p, s.pinAt h = some p :=
  Option.isSome_iff_exists.mp ((hi.boundPin h).symm.trans hb)

theorem State.Inv.pinsWritten {s : State} (hi : s.Inv) : s.pinsWritten = true :=
  (pinsWritten_iff s).mpr fun _ _ => hi.pinAt_of_bound

/-- A configured handle passes the checks: it is bound, and its pin is mapped (R121). -/
theorem State.Inv.passes {s : State} (hi : s.Inv) {h : HandleField} {p : PinId} (hc : s.cfgAt h.toNat = true)
    (hp : s.pinAt h.toNat = some p) : ∃ ch, Passes s h p ch := by
  obtain ⟨ch, -, hch, -⟩ := hi.configured _ _ hc hp
  have hb := hi.cfgBound _ hc
  exact ⟨ch, hi.boundRange _ hb, hb, hc, hp, hch⟩

theorem State.Inv.gated_next {s : State} (hi : s.Inv) (h : HandleField) (act : PinId → Chan → State → State) :
    ∃ t, gated h act s = .next t := by
  by_cases hr : h.toNat < s.platform.numHandles
  · cases hb : s.boundAt h.toNat with
    | false => exact ⟨_, gated_notBound hr hb act⟩
    | true =>
      cases hc : s.cfgAt h.toNat with
      | false => exact ⟨_, gated_notConfigured hr hb hc act⟩
      | true =>
        obtain ⟨p, hp⟩ := hi.pinAt_of_bound hb
        obtain ⟨ch, hpass⟩ := hi.passes hc hp
        exact ⟨_, gated_of_passes hpass act⟩
  · exact ⟨_, gated_badHandle (Nat.not_lt.mp hr) act⟩

theorem State.Inv.bind_next {s : State} (hi : s.Inv) (h : HandleField) (p : PinId) : ∃ t, exec (.bind h p) s = .next t := by
  by_cases hr : h.toNat < s.platform.numHandles
  · cases hb : s.boundAt h.toNat with
    | true => exact ⟨_, exec_bind_alreadyBound hr hb p⟩
    | false =>
      cases hu : s.pinInUse p with
      | true => exact ⟨_, exec_bind_pinInUse hr hb hi.pinsWritten hu⟩
      | false => exact ⟨_, exec_bind_passes ⟨hr, hb, hi.pinsWritten, hu⟩⟩
  · exact ⟨_, exec_bind_badHandle (Nat.not_lt.mp hr) p⟩

theorem State.Inv.configure_next {s : State} (hi : s.Inv) (h : HandleField) (f : BitVec 32) :
    ∃ t, exec (.configure h f) s = .next t := by
  by_cases hr : h.toNat < s.platform.numHandles
  · cases hb : s.boundAt h.toNat with
    | false => exact ⟨_, exec_configure_notBound hr hb f⟩
    | true =>
      obtain ⟨p, hp⟩ := hi.pinAt_of_bound hb
      cases hch : chanOf s.platform p with
      | none => exact ⟨_, exec_configure_unsupportedPin hr hb hp hch f⟩
      | some ch =>
        cases hf : freqOk s.platform ch.timer f.toNat with
        | false => exact ⟨_, exec_configure_freqRange hr hb hp hch hf⟩
        | true => exact ⟨_, exec_configure_passes ⟨hr, hb, hp, hch, hf, hi.pinsWritten⟩⟩
  · exact ⟨_, exec_configure_badHandle (Nat.not_lt.mp hr) f⟩

/-- No command stops in a state that meets the invariant. -/
theorem State.Inv.exec_next {s : State} (hi : s.Inv) (i : Instr) : ∃ t, exec i s = .next t := by
  cases i with
  | bind h p => exact hi.bind_next h p
  | configure h f => exact hi.configure_next h f
  | mark h d => rw [exec_mark]; exact hi.gated_next h _
  | space h d => rw [exec_space]; exact hi.gated_next h _
  | sendByte h v m z o => rw [exec_sendByte]; exact hi.gated_next h _
  | reverseBits v => exact ⟨_, exec_reverseBits v s⟩

theorem State.Inv.commandStep_next {s : State} (hi : s.Inv) (hf : s.fault = none) : ∃ t, commandStep s = .next t := by
  cases hw : fetch s with
  | none => exact ⟨s, commandStep_waits hf hw⟩
  | some w =>
    cases hd : decode w with
    | ok i =>
      obtain ⟨t, ht⟩ := hi.exec_next i
      exact ⟨t, (commandStep_executes hf hw hd).trans ht⟩
    | error r => exact ⟨_, commandStep_illegal hf hw hd⟩

theorem State.Inv.tick_next {s : State} (hi : s.Inv) (k : Nat) : ∃ t, tick k s = .next t := by
  cases hm : s.modeAt k with
  | stopped => exact ⟨s, tick_stopped hm⟩
  | carrier =>
    obtain ⟨top, htop, hthree, -⟩ := hi.running k hm
    exact ⟨_, tick_running hm htop (Nat.mul_pos (slopeTicks_pos _) (by omega)).ne'⟩

/-- A step answers a next state, or the block is faulted and the sequencer has the turn. -/
theorem State.Inv.step_next_or_stops {s : State} (hi : s.Inv) (hp : s.platform.wf = true) :
    (∃ t, step s = .next t) ∨
      (s.fault ≠ none ∧ s.turns.head?.getD .command = .command ∧ step s = .fault .blockStopped) := by
  rcases turn_cases s with hh | ⟨k, hh⟩
  · by_cases hf : s.fault = none
    · rw [step_of_command hp hh]
      exact .inl ((hi.setTurns _).commandStep_next hf)
    · exact .inr ⟨hf, hh, step_of_faulted hp hf hh⟩
  · rw [step_of_tick hp hh]
    exact .inl ((hi.setTurns _).tick_next k)

theorem State.Inv.pinOut_ok {s : State} (hi : s.Inv) (p : PinId) : ∃ l, pinOut s p = .ok l := by
  cases hd : s.dirAt p with
  | inp => exact ⟨.z, by simp [pinOut, hd]⟩
  | out =>
    cases hch : chanOf s.platform p with
    | none => exact ⟨.bit (s.latchAt p), by simp [pinOut, hd, hch]⟩
    | some ch =>
      cases hen : s.enAt ch with
      | false => exact ⟨_, pinOut_off hd hch hen⟩
      | true =>
        obtain ⟨_, _, c, _, _, hcmp, _⟩ := hi.enabled ch hen
        obtain ⟨_, _, hm⟩ := hi.compares ch c hcmp
        obtain ⟨top, htop, _⟩ := hi.running ch.timer hm
        exact ⟨_, pinOut_on hd hch hen hm htop hcmp⟩

/-- Settles O5: the invariant gives each register that a step or a pin's level reads its value. -/
theorem noUnwrittenRegisterIsRead : Obligations.NoUnwrittenRegisterIsRead := fun _ hi hp =>
  ⟨hi.step_next_or_stops hp, hi.pinOut_ok⟩

end Sys2Proof.Machine
end

section
/-! PROOFS. Which registers a command can write (R24, R41, R192), and what a `CONFIGURE` that goes through leaves: its own
pin and carrier (R102, R104, R109), and the other handles of its timer (R107). -/

namespace Sys2Proof.Machine

/-! ### What each kind of command leaves alone (R41) -/

theorem Ends.handles_of_not_bind {i : Instr} {s t : State} (he : Ends s i t) (hi : ∀ h p, i ≠ .bind h p) :
    t.bound = s.bound ∧ t.pin = s.pin := by
  cases he with
  | reported => exact ⟨rfl, rfl⟩
  | raisedMark => exact ⟨rfl, rfl⟩
  | raisedSpace => exact ⟨rfl, rfl⟩
  | raisedSendByte => exact ⟨rfl, rfl⟩
  | bound h p => exact absurd rfl (hi h p)
  | configured => simp
  | marked => exact ⟨rfl, rfl⟩
  | spaced => exact ⟨rfl, rfl⟩
  | sent => simp
  | reversed => exact ⟨rfl, rfl⟩

theorem Ends.frame_of_not_configure {i : Instr} {s t : State} (he : Ends s i t) (hi : ∀ h f, i ≠ .configure h f) :
    SameTimers s t ∧ t.cmp = s.cmp ∧ SamePins s t := by
  cases he with
  | reported => exact ⟨⟨rfl, rfl, rfl⟩, rfl, rfl, rfl⟩
  | raisedMark => exact ⟨⟨rfl, rfl, rfl⟩, rfl, rfl, rfl⟩
  | raisedSpace => exact ⟨⟨rfl, rfl, rfl⟩, rfl, rfl, rfl⟩
  | raisedSendByte => exact ⟨⟨rfl, rfl, rfl⟩, rfl, rfl, rfl⟩
  | bound => exact ⟨⟨rfl, rfl, rfl⟩, rfl, rfl, rfl⟩
  | configured h f => exact absurd rfl (hi h f)
  | marked => exact ⟨⟨rfl, rfl, rfl⟩, rfl, rfl, rfl⟩
  | spaced => exact ⟨⟨rfl, rfl, rfl⟩, rfl, rfl, rfl⟩
  | sent => simp [SameTimers, SamePins]
  | reversed => exact ⟨⟨rfl, rfl, rfl⟩, rfl, rfl, rfl⟩

theorem Ends.frame_of_not_gating {i : Instr} {s t : State} (he : Ends s i t) (hi : isGating i = false) :
    t.fault = s.fault ∧ t.trace = s.trace ∧ ((∀ h f, i ≠ .configure h f) → t.en = s.en) := by
  cases he with
  | reported => exact ⟨rfl, rfl, fun _ => rfl⟩
  | raisedMark => cases hi
  | raisedSpace => cases hi
  | raisedSendByte => cases hi
  | bound => exact ⟨rfl, rfl, fun _ => rfl⟩
  | configured h f => exact ⟨by simp, by simp, fun hc => absurd rfl (hc h f)⟩
  | marked => cases hi
  | spaced => cases hi
  | sent => cases hi
  | reversed => exact ⟨rfl, rfl, fun _ => rfl⟩

/-- The write of `CFG` by a `BIND` is of a handle that is free, and so not configured. -/
theorem Ends.cfgAt_of_not_configure {i : Instr} {s t : State} (he : Ends s i t) (hi : ∀ h f, i ≠ .configure h f)
    (hb : ∀ h, s.cfgAt h = true → s.boundAt h = true) (k : Nat) : t.cfgAt k = s.cfgAt k := by
  cases he with
  | reported => rfl
  | raisedMark => rfl
  | raisedSpace => rfl
  | raisedSendByte => rfl
  | bound h p hp =>
    have hfree : s.cfgAt h.toNat = false := by
      rw [Bool.eq_false_iff]
      intro hc
      cases hp.free.symm.trans (hb _ hc)
    by_cases hk : h.toNat = k
    · simp [← hk, hfree]
    · simp [hk]
  | configured h f => exact absurd rfl (hi h f)
  | marked => rfl
  | spaced => rfl
  | sent => simp
  | reversed => rfl

/-- Settles O52: each kind of command leaves alone what the table gives to the other kinds. -/
theorem onlyListedCommandsWrite : Obligations.OnlyListedCommandsWrite := by
  intro i s t hb ht
  have he := exec_ends ht
  have hgating {P : Prop} (hne : ¬P) (h : isGating i = false → P) : isGating i = true := by
    rw [← Bool.not_eq_false]
    exact fun hg => hne (h hg)
  refine ⟨fun hne => ?_, fun ⟨k, hne⟩ => ?_, fun hne => ?_, fun hne => ?_,
    fun hne => hgating hne fun hg => (he.frame_of_not_gating hg).1,
    fun hne => hgating hne fun hg => (he.frame_of_not_gating hg).2.1⟩
  · by_contra hi
    obtain ⟨hbound, hpin⟩ := he.handles_of_not_bind fun h p hbind => hi ⟨h, p, hbind⟩
    exact hne.elim (· hbound) (· hpin)
  · by_contra hi
    exact hne (he.cfgAt_of_not_configure (fun h f hcfg => hi ⟨h, f, hcfg⟩) hb k)
  · by_contra hi
    obtain ⟨htimers, hcmp, hpins⟩ := he.frame_of_not_configure fun h f hcfg => hi ⟨h, f, hcfg⟩
    exact hne.elim (· htimers) (·.elim (· hcmp) (· hpins))
  · by_cases hi : ∃ h f, i = .configure h f
    · exact .inr hi
    · exact .inl (hgating hne fun hg => (he.frame_of_not_gating hg).2.2 fun h f hcfg => hi ⟨h, f, hcfg⟩)

/-! ### Binding (R24) -/

/-- A handle that a command binds, or whose pin it changes, is the free one that a `BIND` names. -/
theorem Ends.handle_cases {i : Instr} {s t : State} (he : Ends s i t) (k : Nat) :
    (t.boundAt k = s.boundAt k ∧ t.pinAt k = s.pinAt k) ∨
      ∃ h p, i = .bind h p ∧ h.toNat = k ∧ s.boundAt k = false ∧ t.boundAt k = true ∧ t.pinAt k = some p := by
  by_cases hi : ∀ h p, i ≠ .bind h p
  · obtain ⟨hbound, hpin⟩ := he.handles_of_not_bind hi
    exact .inl ⟨by rw [State.boundAt, hbound]; rfl, by rw [State.pinAt, hpin]; rfl⟩
  · push Not at hi
    obtain ⟨h, p, rfl⟩ := hi
    cases he with
    | reported => exact .inl ⟨rfl, rfl⟩
    | bound _ _ hp =>
      by_cases hk : h.toNat = k
      · subst hk
        exact .inr ⟨h, p, rfl, rfl, hp.free, by simp, by simp⟩
      · exact .inl (by simp [hk])

/-- Settles O46: a step that is no `BIND` leaves every handle, and a `BIND` binds a free one. -/
theorem pinIsImmutable : Obligations.PinIsImmutable := by
  intro s t k hst
  have hsame (hb : t.boundAt k = s.boundAt k) (hp : t.pinAt k = s.pinAt k) :
      (s.boundAt k = true → t.boundAt k = true ∧ t.pinAt k = s.pinAt k) ∧
        (s.boundAt k = false → t.boundAt k = true →
          ∃ h p, s.executes = some (.bind h p) ∧ h.toNat = k ∧ t.pinAt k = some p) :=
    ⟨fun hs => ⟨hb.trans hs, hp⟩, fun hs ht => by cases (hs.symm.trans hb.symm).trans ht⟩
  obtain ⟨-, hs⟩ := step_steps hst
  cases hs with
  | idleTick => exact hsame rfl rfl
  | ticked => exact hsame rfl rfl
  | waits => exact hsame rfl rfl
  | illegal => exact hsame rfl rfl
  | executed w i _ hh hf hw hd he =>
    rcases he.handle_cases k with ⟨hb, hp⟩ | ⟨h, p, rfl, hk, hfree, hbound, hpin⟩
    · exact hsame hb hp
    · refine ⟨fun hs => ?_, fun _ _ => ⟨h, p, executes_of_command hh hf hw hd, hk, hpin⟩⟩
      cases hfree.symm.trans hs

/-! ### Driven pins and running timers (R192) -/

/-- A pin that a command drives first is that of the handle which a `CONFIGURE` names. -/
theorem Ends.configure_of_driven {i : Instr} {s t : State} (he : Ends s i t) {q : PinId} (hs : s.dirAt q = .inp)
    (ht : t.dirAt q = .out) : ∃ h f, i = .configure h f ∧ s.pinAt h.toNat = some q := by
  by_cases hi : ∀ h f, i ≠ .configure h f
  · obtain ⟨-, -, hdir, -⟩ := he.frame_of_not_configure hi
    rw [State.dirAt, hdir] at ht
    cases hs.symm.trans ht
  · push Not at hi
    obtain ⟨h, f, rfl⟩ := hi
    cases he with
    | reported => cases hs.symm.trans ht
    | configured _ _ p ch hp =>
      by_cases hq : p = q
      · exact ⟨h, f, rfl, hq ▸ hp.pin⟩
      · simp [hq, hs] at ht

/-- A timer that a command starts is that of the pin of the handle which a `CONFIGURE` names. -/
theorem Ends.configure_of_started {i : Instr} {s t : State} (he : Ends s i t) {k : Nat} (hs : s.modeAt k = .stopped)
    (ht : t.modeAt k = .carrier) :
    ∃ h f p ch, i = .configure h f ∧ s.pinAt h.toNat = some p ∧ chanOf s.platform p = some ch ∧ ch.timer = k := by
  by_cases hi : ∀ h f, i ≠ .configure h f
  · obtain ⟨⟨hmode, -, -⟩, -, -⟩ := he.frame_of_not_configure hi
    rw [State.modeAt, hmode] at ht
    cases hs.symm.trans ht
  · push Not at hi
    obtain ⟨h, f, rfl⟩ := hi
    cases he with
    | reported => cases hs.symm.trans ht
    | configured _ _ p ch hp =>
      by_cases hk : ch.timer = k
      · exact ⟨h, f, p, ch, rfl, hp.pin, hp.chan, hk⟩
      · simp [hk, hs] at ht

theorem step_configure_of_driven {s t : State} (hst : step s = .next t) {q : PinId} (hs : s.dirAt q = .inp)
    (ht : t.dirAt q = .out) : ∃ h f, s.executes = some (.configure h f) ∧ s.pinAt h.toNat = some q := by
  obtain ⟨-, hsteps⟩ := step_steps hst
  cases hsteps with
  | idleTick => cases hs.symm.trans ht
  | ticked => cases hs.symm.trans ht
  | waits => cases hs.symm.trans ht
  | illegal => cases hs.symm.trans ht
  | executed w i _ hh hf hw hd he =>
    obtain ⟨h, f, rfl, hp⟩ := he.configure_of_driven hs ht
    exact ⟨h, f, executes_of_command hh hf hw hd, hp⟩

theorem step_configure_of_started {s t : State} (hst : step s = .next t) {k : Nat} (hs : s.modeAt k = .stopped)
    (ht : t.modeAt k = .carrier) :
    ∃ h f p ch, s.executes = some (.configure h f) ∧ s.pinAt h.toNat = some p ∧ chanOf s.platform p = some ch ∧
      ch.timer = k := by
  obtain ⟨-, hsteps⟩ := step_steps hst
  cases hsteps with
  | idleTick => cases hs.symm.trans ht
  | ticked => cases hs.symm.trans ht
  | waits => cases hs.symm.trans ht
  | illegal => cases hs.symm.trans ht
  | executed w i _ hh hf hw hd he =>
    obtain ⟨h, f, p, ch, rfl, hrest⟩ := he.configure_of_started hs ht
    exact ⟨h, f, p, ch, executes_of_command hh hf hw hd, hrest⟩

theorem eq_inp_of_ne_out {d : Dir} (h : d ≠ .out) : d = .inp := by
  cases d with
  | inp => rfl
  | out => exact absurd rfl h

theorem eq_stopped_of_ne_carrier {m : Mode} (h : m ≠ .carrier) : m = .stopped := by
  cases m with
  | stopped => rfl
  | carrier => exact absurd rfl h

/-- Settles O2: only a `CONFIGURE` drives a pin or starts a timer. -/
theorem pinsUndrivenUntilConfigured : Obligations.PinsUndrivenUntilConfigured := by
  refine ⟨fun P ws ts => ⟨State.dirAt_resetOn P ws ts, State.modeAt_resetOn P ws ts⟩,
    fun s ⟨hdir, _⟩ p => by simp [pinOut, hdir], fun s t ⟨hdir, hmode⟩ hst hne => ⟨fun p => ?_, fun k => ?_⟩,
    fun h q s t ⟨hdir, hmode⟩ ht => ?_,
    fun s t hst => ⟨fun _ => step_configure_of_driven hst, fun _ => step_configure_of_started hst⟩⟩
  · refine eq_inp_of_ne_out fun ht => ?_
    obtain ⟨h, f, hx, -⟩ := step_configure_of_driven hst (hdir p) ht
    exact hne h f hx
  · refine eq_stopped_of_ne_carrier fun ht => ?_
    obtain ⟨h, f, _, _, hx, -⟩ := step_configure_of_started hst (hmode k) ht
    exact hne h f hx
  · obtain ⟨⟨hm, -, -⟩, -, hd, -⟩ := (exec_ends ht).frame_of_not_configure nofun
    exact ⟨fun p => by rw [State.dirAt, hd]; exact hdir p, fun k => by rw [State.modeAt, hm]; exact hmode k⟩

/-! ### A `CONFIGURE` that goes through -/

/-- A `CONFIGURE` whose status is 0 has passed its checks, on the handle's pin and the pin's channel. -/
theorem configure_of_status_ok {h : HandleField} {f : BitVec 32} {p : PinId} {ch : Chan} {s t : State}
    (hp : s.pinAt h.toNat = some p) (hch : chanOf s.platform p = some ch) (ht : exec (.configure h f) s = .next t)
    (hst : t.resp.status = 0) :
    ConfigurePasses s h f p ch ∧ t = retireWith .ok 0 (commitConfigure h.toNat p ch f.toNat s) := by
  cases exec_ends ht with
  | reported _ e he => exact absurd (statusCode_eq_zero hst) he
  | configured _ _ q x hpass =>
    cases hp.symm.trans hpass.pin
    cases hch.symm.trans hpass.chan
    exact ⟨hpass, rfl⟩

/-- Settles O32: the pin is driven, its latch is low and its channel is off. -/
theorem configureLeavesPinLow : Obligations.ConfigureLeavesPinLow := by
  intro h f p ch s t hp hch ht hst
  obtain ⟨-, rfl⟩ := configure_of_status_ok hp hch ht hst
  refine ⟨by simp, ?_⟩
  rw [pinOut_off (ch := ch) (by simp) (by simpa using hch) (by simp)]
  simp

/-- Settles O33: the top value is the quotient of the clock by `SLOPE * f`, and the compare value a third of it. -/
theorem configuredCarrier : Obligations.ConfiguredCarrier := by
  intro h f p ch s t hp hch ht hst
  obtain ⟨hpass, rfl⟩ := configure_of_status_ok hp hch ht hst
  obtain ⟨hone, hthree, hwidth⟩ := (freqOk_iff _ _ _).mp hpass.freq
  have hpos : 0 < slopeTicks s.platform.slope * f.toNat := Nat.mul_pos (slopeTicks_pos _) hone
  refine ⟨divide s.platform f.toNat, compareOf (divide s.platform f.toNat), by simp, by simp, Nat.mul_div_le _ _,
    Nat.lt_mul_div_succ _ hpos, ?_⟩
  have htwo := Nat.two_pow_pos (timerWidth s.platform ch.timer)
  rw [compareOf_eq]
  omega

/-! ### The other handles of the timer (R107) -/

/-- A handle that is bound and not configured. -/
structure Unconfigured (s : State) (k : HandleField) : Prop where
  inRange : k.toNat < s.platform.numHandles
  bound : s.boundAt k.toNat = true
  cfg : s.cfgAt k.toNat = false

/-- Only a `CONFIGURE` of the handle itself configures it. -/
theorem Unconfigured.of_ends {i : Instr} {s t : State} {k : HandleField} (hk : Unconfigured s k) (he : Ends s i t)
    (hi : ∀ g, i ≠ .configure k g) : Unconfigured t k := by
  obtain ⟨hr, hb, hc⟩ := hk
  refine ⟨by rwa [he.sameOutside.1], ?_, ?_⟩
  · rcases he.handle_cases k.toNat with ⟨hbound, -⟩ | ⟨_, _, _, _, _, hbound, -⟩
    · exact hbound.trans hb
    · exact hbound
  · cases he with
    | reported => exact hc
    | raisedMark => exact hc
    | raisedSpace => exact hc
    | raisedSendByte => exact hc
    | bound => simp [hc]
    | configured h f =>
      have hne : h.toNat ≠ k.toNat := fun he => hi f (by rw [BitVec.eq_of_toNat_eq he])
      simp [hne, hc]
    | marked => exact hc
    | spaced => exact hc
    | sent => simpa using hc
    | reversed => exact hc

theorem Unconfigured.of_execAll {is : List Instr} {s u : State} {k : HandleField} (hk : Unconfigured s k)
    (hi : ∀ g, Instr.configure k g ∉ is) (hu : execAll is s = .next u) : Unconfigured u k := by
  induction is generalizing s with
  | nil =>
    cases hu
    exact hk
  | cons i is ih =>
    rw [execAll] at hu
    split at hu
    · next t ht =>
      exact ih (hk.of_ends (exec_ends ht) fun g hg => hi g (hg ▸ List.mem_cons_self))
        (fun g hg => hi g (List.mem_cons_of_mem _ hg)) hu
    · cases hu
    · cases hu

/-- Settles O34: `CONFIGURE` rewrites the timer, leaves the co-tenant's own channel, and clears its `CFG`, which no other
command sets again. -/
theorem cotenantIsInvalidated : Obligations.CotenantIsInvalidated := by
  intro h k f p q ch x s t ht hst hkh hr hb hp hch hq hx hxt hxc
  obtain ⟨hpass, rfl⟩ := configure_of_status_ok hp hch ht hst
  have hne : h.toNat ≠ k.toNat := fun he => hkh (BitVec.eq_of_toNat_eq he).symm
  have hon : s.onTimer ch.timer k.toNat = true := (onTimer_iff s _ _).mpr ⟨hb, q, x, hq, hx, hxt⟩
  have hcfg : (commitConfigure h.toNat p ch f.toNat s).cfgAt k.toNat = false := by simp [hne, hr, hon]
  refine ⟨by simp [hxt], by simp [hxt], by simp [hxt], hcfg, by simp [hxc.symm], by simp [hxc.symm],
    fun c hen hdir hcmp => ?_, fun is u hnot hu i hg hi => ?_⟩
  · rw [pinOut_on (ch := x) (top := divide s.platform f.toNat) (c := c) (by simp [hdir]) (by simpa using hx)
      (by simp [hxc.symm, hen]) (by simp [hxt]) (by simp [hxt]) (by simp [hxc.symm, hcmp])]
    simp [hxt]
  · have hk : Unconfigured (retireWith .ok 0 (commitConfigure h.toNat p ch f.toNat s)) k :=
      ⟨by simpa using hr, by simpa using hb, hcfg⟩
    obtain ⟨hr', hb', hc'⟩ := hk.of_execAll hnot hu
    exact exec_gating_notConfigured hg hi hr' hb' hc'

end Sys2Proof.Machine
end

section
/-! PROOFS. The gates of a handle and its pin: the levels during the waits (R33, R55, R124), the carrier's duty (R33, R110),
and the sixteen gates of a byte against eight pairs of commands (R142, R143). -/

namespace Sys2Proof.Machine

/-! ### The gates of a byte, one by one (R142) -/

theorem length_serialize (m z o n : Nat) (x : Byte) : (serialize m z o n x).length = 2 * n := by
  induction n generalizing x with
  | zero => rfl
  | succ n ih => simp [serialize, ih, Nat.mul_succ]

theorem length_byteGates (v : Byte) (m z o : Nat) : (byteGates v m z o).length = 16 := length_serialize m z o 8 v

/-- Gate `2i` is the mark of bit `i`, and gate `2i + 1` its space. -/
theorem getElem?_serialize (m z o : Nat) {n i : Nat} (hi : i < n) (x : Byte) :
    (serialize m z o n x)[2 * i]? = some (.mark, m) ∧
      (serialize m z o n x)[2 * i + 1]? = some (.space, if x.getLsbD i then o else z) := by
  induction n generalizing i x with
  | zero => cases hi
  | succ n ih =>
    cases i with
    | zero => exact ⟨rfl, rfl⟩
    | succ i =>
      have := ih (Nat.lt_of_succ_lt_succ hi) (x >>> 1)
      simpa [serialize, Nat.mul_succ, Nat.add_comm 1 i] using this

/-- The events of a byte's gates, by bit number. -/
theorem getElem?_gateEvents_byteGates (idx h : Nat) (p : PinId) (v : Byte) (m z o : Nat) {i : Nat} (hi : i < 8) :
    ((gateEvents idx h p (byteGates v m z o))[2 * i]?).map (fun e => (e.kind, e.dur)) = some (.mark, m) ∧
      ((gateEvents idx h p (byteGates v m z o))[2 * i + 1]?).map (fun e => (e.kind, e.dur)) =
        some (.space, if v.getLsbD i then o else z) := by
  obtain ⟨hmark, hspace⟩ := getElem?_serialize m z o hi v
  rw [gateEvents, byteGates, List.getElem?_map, List.getElem?_map, hmark, hspace]
  exact ⟨rfl, rfl⟩

/-- The last of the first `k + 1` gates is gate `k`. -/
theorem lastBit_take_succ (b : Bool) {gs : List (WaitKind × Nat)} {k : Nat} {g : WaitKind × Nat} (hg : gs[k]? = some g) :
    lastBit b (gs.take (k + 1)) = (g.1 == .mark) := by
  rw [List.take_add_one, hg, lastBit_append]
  rfl

/-- During wait `k` of a byte the enable bit is 1 exactly when `k` is even. -/
theorem lastBit_take_byteGates (b : Bool) (v : Byte) (m z o : Nat) {k : Nat} (hk : k < 16) :
    lastBit b ((byteGates v m z o).take (k + 1)) = decide (k % 2 = 0) := by
  obtain ⟨hmark, hspace⟩ := getElem?_serialize m z o (i := k / 2) (n := 8) (by omega) v
  by_cases he : k % 2 = 0
  · rw [show 2 * (k / 2) = k by omega] at hmark
    rw [byteGates, lastBit_take_succ b hmark]
    simp [he]
  · rw [show 2 * (k / 2) + 1 = k by omega] at hspace
    rw [byteGates, lastBit_take_succ b hspace]
    simp [he]

/-- Settles O39: a `SEND_BYTE` that retires OK appends the events of its byte's gates. -/
theorem sendByteOrder : Obligations.SendByteOrder := by
  intro h v m z o s t ht hst hf hcpc
  cases exec_ends ht with
  | reported _ e he => exact absurd (statusCode_eq_zero hst) he
  | raisedSendByte => exact absurd hcpc (Nat.succ_ne_self _).symm
  | sent _ _ _ _ _ p ch =>
    refine ⟨gateEvents s.cpc h.toNat p (byteGates v m.toNat z.toNat o.toNat), gates_trace h.toNat p ch _ s, ?_,
      fun i hi => getElem?_gateEvents_byteGates _ _ p v _ _ _ hi⟩
    rw [gateEvents, List.length_map, length_byteGates]

/-- Settles O42: space `i` of the reversed byte is that of bit `7 - i`. -/
theorem reversedByteGoesOutMsbFirst : Obligations.ReversedByteGoesOutMsbFirst := by
  intro h v m z o p ch s hr hb hc hp hch
  refine ⟨_, exec_sendByte_passes ⟨hr, hb, hc, hp, hch⟩ (rev8 v) m z o, fun i hi => ?_⟩
  have hspace := (getElem?_gateEvents_byteGates s.cpc h.toNat p (rev8 v) m.toNat z.toNat o.toNat hi).2
  rw [rev8_getLsbD v hi] at hspace
  rw [retireWith_trace, gates_trace, Nat.add_assoc, List.getElem?_append_right (Nat.le_add_right _ _),
    Nat.add_sub_cancel_left]
  exact hspace

/-! ### A second gate (R123) -/

/-- Settles O43: the second gate writes the bit that the first wrote, and each adds its own event. -/
theorem gateIsIdempotent : Obligations.GateIsIdempotent := by
  intro h d e p ch s hr hb hc hp hch
  have hpass : Passes s h p ch := ⟨hr, hb, hc, hp, hch⟩
  have hpass' (kind : WaitKind) (d : Nat) : Passes (retireWith .ok 0 (gate h.toNat p ch kind d s)) h p ch :=
    hpass.mono rfl rfl rfl rfl
  refine ⟨⟨_, _, exec_mark_passes hpass d, exec_mark_passes (hpass' _ _) e, fun x => ?_, by simp⟩,
    ⟨_, _, exec_space_passes hpass d, exec_space_passes (hpass' _ _) e, fun x => ?_, by simp⟩⟩
  · by_cases hx : ch = x <;> simp [hx]
  · by_cases hx : ch = x <;> simp [hx]

/-! ### The pin during a wait (R33, R124) -/

/-- The pin of a configured handle after gates of its channel: the carrier of its timer when the last is a mark, else low. -/
theorem State.Inv.pinOut_gates {s : State} (hi : s.Inv) {h : HandleField} {p : PinId} {ch : Chan} (hp : Passes s h p ch) :
    ∃ top, s.topAt ch.timer = some top ∧ ∀ gs,
      pinOut (gates h.toNat p ch gs s) p =
        .ok (.bit (if lastBit (s.enAt ch) gs then carrierBit s.platform.slope (s.phaseAt ch.timer) top (top / 3)
          else false)) := by
  obtain ⟨x, top, hx, hm, htop, hcmp, hd⟩ := hi.configured _ _ hp.cfg hp.pin
  cases hp.chan.symm.trans hx
  refine ⟨top, htop, fun gs => ?_⟩
  cases hen : lastBit (s.enAt ch) gs with
  | false =>
    rw [pinOut_off (ch := ch) (by simpa using hd) (by simpa using hx) (by simp [hen])]
    simp [hi.latchLow]
  | true =>
    rw [pinOut_on (by simpa using hd) (by simpa using hx) (by simp [hen]) (by simpa using hm) (by simpa using htop)
      (by simpa using hcmp)]
    simp [compareOf_eq]

/-- Retirement writes nothing that a pin's level depends on. -/
theorem pinOut_retireWith (e : Status) (v : Byte) (s : State) (p : PinId) : pinOut (retireWith e v s) p = pinOut s p := rfl

/-- Settles O35: a `MARK` is one gate, which leaves the channel on. -/
theorem pinCarriesCarrierDuringMark : Obligations.PinCarriesCarrierDuringMark := by
  intro h d p s hi hc hp
  obtain ⟨ch, hpass⟩ := hi.passes hc hp
  obtain ⟨top, htop, hout⟩ := hi.pinOut_gates hpass
  exact ⟨_, ch, top, exec_mark_passes hpass d, hpass.chan, htop,
    (pinOut_retireWith _ _ _ p).trans (hout [(.mark, d.toNat)])⟩

/-- Settles O36: a `SPACE` is one gate, which leaves the channel off. -/
theorem pinIsLowDuringSpace : Obligations.PinIsLowDuringSpace := by
  intro h d p s hi hc hp
  obtain ⟨ch, hpass⟩ := hi.passes hc hp
  obtain ⟨top, -, hout⟩ := hi.pinOut_gates hpass
  exact ⟨_, exec_space_passes hpass d, (pinOut_retireWith _ _ _ p).trans (hout [(.space, d.toNat)])⟩

/-- Settles O37: the state of wait `k` has made the first `k + 1` gates. -/
theorem pinLevelsDuringSendByte : Obligations.PinLevelsDuringSendByte := by
  intro h v m z o p s hi hc hp
  obtain ⟨ch, hpass⟩ := hi.passes hc hp
  obtain ⟨top, htop, hout⟩ := hi.pinOut_gates hpass
  refine ⟨ch, top, hpass.chan, htop, ?_, fun k hk => ?_⟩
  · rw [exec_sendByte_passes hpass, retire_eq, duringWait, List.take_of_length_le (length_byteGates v _ _ _).le]
  · rw [duringWait, hout, lastBit_take_byteGates _ _ _ _ _ hk]
    simp

/-! ### The duty cycle (R33, R110) -/

/-- Of the phases below `n`, those below `a` and those from `b` on. -/
theorem length_filter_lt_or_ge (a b n : Nat) :
    ((List.range n).filter fun ph => decide (ph < a) || decide (b ≤ ph)).length = min n a + (n - max a b) := by
  induction n with
  | zero => simp
  | succ n ih =>
    rw [List.range_succ, List.filter_append, List.length_append, ih, List.filter_singleton]
    cases hn : decide (n < a) || decide (b ≤ n) with
    | true =>
      have : n < a ∨ b ≤ n := by simpa using hn
      simp only [cond_true, List.length_singleton]
      omega
    | false =>
      have : ¬(n < a ∨ b ≤ n) := by simpa using hn
      simp only [cond_false, List.length_nil]
      omega

/-- Settles O38: with dual-slope counting the active phases are the first and the last `CMP` of the period, with
single-slope counting the first alone. -/
theorem carrierDutyCycle : Obligations.CarrierDutyCycle := by
  intro sl top c
  cases sl with
  | dual =>
    have hcount := length_filter_lt_or_ge c (2 * top - c) (2 * top)
    simp only [carrierBit, slopeTicks, hcount]
    split <;> omega
  | single =>
    have hactive : ∀ ph ∈ List.range (1 * top),
        carrierBit .single ph top c = (decide (ph < c) || decide (1 * top ≤ ph)) := fun ph hph => by
      simpa [carrierBit] using fun hle => absurd hle (Nat.not_le.mpr (by simpa using hph))
    rw [slopeTicks, List.filter_congr hactive, length_filter_lt_or_ge]
    split <;> omega

end Sys2Proof.Machine
end

section
/-! PROOFS. A `SEND_BYTE` and its eight mark and space pairs (R143): commands of single gates, one after the other, leave
what the gates of one command leave, but for the indices of the events and `cpc`. -/

namespace Sys2Proof.Machine

/-- The command of one gate (R121, R122). -/
def gateCommand (h : HandleField) : WaitKind × BitVec 32 → Instr
  | (.mark, d) => .mark h d
  | (.space, d) => .space h d

/-- A gate with its duration as a number. -/
def gateOf (g : WaitKind × BitVec 32) : WaitKind × Nat := (g.1, g.2.toNat)

theorem exec_gateCommand {s : State} {h : HandleField} {p : PinId} {ch : Chan} (hp : Passes s h p ch)
    (g : WaitKind × BitVec 32) :
    exec (gateCommand h g) s = .next (retireWith .ok 0 (gates h.toNat p ch [gateOf g] s)) := by
  obtain ⟨kind, d⟩ := g
  cases kind with
  | mark => exact exec_mark_passes hp d
  | space => exact exec_space_passes hp d

/-- What gating commands of a handle leave alone. -/
structure GatedFrame (s t : State) : Prop where
  errlog : t.errlog = s.errlog
  fault : t.fault = s.fault
  cmp : t.cmp = s.cmp
  handles : SameHandles s t
  timers : SameTimers s t
  pins : SamePins s t
  outside : SameOutside s t

theorem gatedFrame_gates (h : Nat) (p : PinId) (ch : Chan) (gs : List (WaitKind × Nat)) (s : State) :
    GatedFrame s (retireWith .ok 0 (gates h p ch gs s)) := by
  obtain ⟨⟨-, hlog, -, hfault⟩, -, -, hcmp, hhandles, htimers, hpins, houtside⟩ :=
    retire_gates_frame h p ch gs (s := s) rfl
  exact ⟨hlog, hfault, hcmp, hhandles, htimers, hpins, houtside⟩

theorem GatedFrame.refl (s : State) : GatedFrame s s :=
  ⟨rfl, rfl, rfl, ⟨rfl, rfl, rfl⟩, ⟨rfl, rfl, rfl⟩, ⟨rfl, rfl⟩, ⟨rfl, rfl, rfl⟩⟩

theorem GatedFrame.trans {s t u : State} (h : GatedFrame s t) (h' : GatedFrame t u) : GatedFrame s u := by
  obtain ⟨hlog, hfault, hcmp, ⟨hbound, hpin, hcfg⟩, ⟨hmode, htop, hphase⟩, ⟨hdir, hlatch⟩, hplatform, hstream, hturns⟩ := h
  obtain ⟨hlog', hfault', hcmp', ⟨hbound', hpin', hcfg'⟩, ⟨hmode', htop', hphase'⟩, ⟨hdir', hlatch'⟩, hplatform', hstream',
    hturns'⟩ := h'
  exact ⟨hlog'.trans hlog, hfault'.trans hfault, hcmp'.trans hcmp,
    ⟨hbound'.trans hbound, hpin'.trans hpin, hcfg'.trans hcfg⟩,
    ⟨hmode'.trans hmode, htop'.trans htop, hphase'.trans hphase⟩, ⟨hdir'.trans hdir, hlatch'.trans hlatch⟩,
    hplatform'.trans hplatform, hstream'.trans hstream, hturns'.trans hturns⟩

theorem GatedFrame.symm {s t : State} (h : GatedFrame s t) : GatedFrame t s := by
  obtain ⟨hlog, hfault, hcmp, ⟨hbound, hpin, hcfg⟩, ⟨hmode, htop, hphase⟩, ⟨hdir, hlatch⟩, hplatform, hstream, hturns⟩ := h
  exact ⟨hlog.symm, hfault.symm, hcmp.symm, ⟨hbound.symm, hpin.symm, hcfg.symm⟩, ⟨hmode.symm, htop.symm, hphase.symm⟩,
    ⟨hdir.symm, hlatch.symm⟩, hplatform.symm, hstream.symm, hturns.symm⟩

theorem GatedFrame.passes {s t : State} (h : GatedFrame s t) {k : HandleField} {p : PinId} {ch : Chan}
    (hp : Passes s k p ch) : Passes t k p ch := by
  obtain ⟨hbound, hpin, hcfg⟩ := h.handles
  exact hp.mono h.outside.1 hbound hcfg hpin

theorem withoutIdx_append (es fs : List Event) : withoutIdx (es ++ fs) = withoutIdx es ++ withoutIdx fs :=
  List.map_append

/-- But for their indices, the events of gates do not depend on the command's index. -/
theorem withoutIdx_gateEvents (idx h : Nat) (p : PinId) (gs : List (WaitKind × Nat)) :
    withoutIdx (gateEvents idx h p gs) = gateEvents 0 h p gs := by
  rw [withoutIdx, gateEvents, List.map_map]
  rfl

/-- Commands of single gates, executed one after the other. -/
theorem execAll_gateCommands {h : HandleField} {p : PinId} {ch : Chan} (gs : List (WaitKind × BitVec 32)) {s : State}
    (hp : Passes s h p ch) :
    ∃ u, execAll (gs.map (gateCommand h)) s = .next u ∧ GatedFrame s u ∧ u.cpc = s.cpc + gs.length ∧
      withoutIdx u.trace = withoutIdx s.trace ++ gateEvents 0 h.toNat p (gs.map gateOf) ∧
      (∀ x, u.enAt x = if ch = x then lastBit (s.enAt ch) (gs.map gateOf) else s.enAt x) ∧
      (gs ≠ [] → u.resp = ⟨0, 0⟩) := by
  induction gs generalizing s with
  | nil =>
    refine ⟨s, rfl, .refl s, rfl, by simp [gateEvents], fun x => ?_, fun hnil => absurd rfl hnil⟩
    by_cases hx : ch = x <;> simp [lastBit, hx]
  | cons g gs ih =>
    have hframe := gatedFrame_gates h.toNat p ch [gateOf g] s
    obtain ⟨u, hu, hframe', hcpc, htrace, hen, hresp⟩ := ih (hframe.passes hp)
    refine ⟨u, ?_, hframe.trans hframe', ?_, ?_, fun x => ?_, fun _ => ?_⟩
    · rw [List.map_cons, execAll, exec_gateCommand hp]
      exact hu
    · rw [hcpc, retireWith_cpc, gates_cpc, List.length_cons, Nat.add_assoc, Nat.add_comm 1]
    · rw [htrace, retireWith_trace, gates_trace, ← gateEvents, withoutIdx_append, withoutIdx_gateEvents, List.append_assoc]
      rfl
    · rw [hen]
      by_cases hx : ch = x <;> simp [hx, lastBit]
    · by_cases hnil : gs = []
      · subst hnil
        cases hu
        rfl
      · exact hresp hnil

/-- The gates of the pairs that stand for a `SEND_BYTE` (R143). -/
def pairGates (v : Byte) (m z o : BitVec 16) : List (WaitKind × BitVec 32) :=
  (List.range 8).flatMap fun i => [(.mark, m.setWidth 32), (.space, (if v.getLsbD i then o else z).setWidth 32)]

theorem bytePairs_eq (h : HandleField) (v : Byte) (m z o : BitVec 16) :
    bytePairs h v m z o = (pairGates v m z o).map (gateCommand h) := by
  rw [pairGates, List.map_flatMap]
  rfl

/-- The pairs' gates are those of the byte: no duration is lost in the wider field. -/
theorem map_gateOf_pairGates (v : Byte) (m z o : BitVec 16) :
    (pairGates v m z o).map gateOf = byteGates v m.toNat z.toNat o.toNat := by
  have hwide (x : BitVec 16) : (x.setWidth 32).toNat = x.toNat := BitVec.toNat_setWidth_of_le (by decide)
  rw [byteGates, serialize_eq, pairGates, List.map_flatMap]
  refine List.flatMap_congr fun i _ => ?_
  simp only [gateOf, List.map_cons, List.map_nil, hwide, apply_ite BitVec.toNat]

/-- Settles O40: both append the events of the same gates, and end with the bit of the last. -/
theorem sendByteIsItsPairs : Obligations.SendByteIsItsPairs := by
  intro h v m z o p ch s hr hb hc hp hch
  have hpass : Passes s h p ch := ⟨hr, hb, hc, hp, hch⟩
  obtain ⟨u, hu, hframe, hcpc, htrace, hen, hresp⟩ := execAll_gateCommands (pairGates v m z o) hpass
  rw [← bytePairs_eq] at hu
  rw [map_gateOf_pairGates] at htrace hen
  obtain ⟨hlog, hfault, hcmp, hhandles, htimers, hpins, houtside⟩ :=
    (gatedFrame_gates h.toNat p ch (byteGates v m.toNat z.toNat o.toNat) s).symm.trans hframe
  refine ⟨_, u, exec_sendByte_passes hpass v m z o, hu, ?_, by simp, hcpc, fun x => ?_, ?_, hlog.symm, hfault.symm,
    hcmp.symm, hhandles, htimers, hpins, houtside⟩
  · rw [htrace, retireWith_trace, gates_trace, ← gateEvents, withoutIdx_append, withoutIdx_gateEvents]
  · rw [hen, enAt_retireWith, enAt_gates]
  · rw [hresp (List.cons_ne_nil _ _), retireWith_resp, respOf_ok]

end Sys2Proof.Machine
end

section
/-! PROOFS. A command's effect is chosen by its checks, and they read only the platform and the handle registers: states
that agree on those make the same transition (R28, R38, R58). So no command reads what the ticks and the host's log write. -/

namespace Sys2Proof.Machine

/-! ### The effect of a command -/

/-- The transitions that a command can make: a report, the fault entry, or its own. -/
inductive Effect : Instr → (State → State) → Prop where
  | report (i : Instr) (e : Status) (he : e ≠ .ok) : Effect i (retireWith e 0)
  | raise (i : Instr) (f : FaultReason) : Effect i (raise f)
  | bind (h : HandleField) (p : PinId) : Effect (.bind h p) fun s => retireWith .ok 0 (commitBind h.toNat p s)
  | configure (h : HandleField) (f : BitVec 32) (p : PinId) (ch : Chan) :
      Effect (.configure h f) fun s => retireWith .ok 0 (commitConfigure h.toNat p ch f.toNat s)
  | gates (i : Instr) (h : HandleField) (p : PinId) (ch : Chan) (gs : List (WaitKind × Nat)) :
      Effect i fun s => retireWith .ok 0 (gates h.toNat p ch gs s)
  | reverse (i : Instr) (v : Byte) : Effect i (retireWith .ok v)

/-- The states agree on all that the checks of a command read. -/
structure SameChecks (s s' : State) : Prop where
  platform : s'.platform = s.platform
  bound : s'.bound = s.bound
  pin : s'.pin = s.pin
  cfg : s'.cfg = s.cfg

/-- One transition answers both states, or one stop does. -/
def SameEffect (i : Instr) (s s' : State) : Prop :=
  (∃ f, Effect i f ∧ exec i s = .next (f s) ∧ exec i s' = .next (f s')) ∨
    ∃ r, exec i s = .fault r ∧ exec i s' = .fault r

theorem SameChecks.boundAt {s s' : State} (h : SameChecks s s') (k : Nat) : s'.boundAt k = s.boundAt k :=
  congrArg (regGet false · k) h.bound

theorem SameChecks.pinAt {s s' : State} (h : SameChecks s s') (k : Nat) : s'.pinAt k = s.pinAt k :=
  congrArg (regGet none · k) h.pin

theorem SameChecks.cfgAt {s s' : State} (h : SameChecks s s') (k : Nat) : s'.cfgAt k = s.cfgAt k :=
  congrArg (regGet false · k) h.cfg

theorem SameChecks.badHandle {s s' : State} (h : SameChecks s s') (k : HandleField) :
    badHandle s' k = badHandle s k := by
  rw [Machine.badHandle, Machine.badHandle, h.platform]

theorem SameChecks.pinsWritten {s s' : State} (h : SameChecks s s') : s'.pinsWritten = s.pinsWritten := by
  simp only [State.pinsWritten, h.platform, h.boundAt, h.pinAt]

theorem SameChecks.pinInUse {s s' : State} (h : SameChecks s s') (p : PinId) : s'.pinInUse p = s.pinInUse p := by
  simp only [State.pinInUse, h.platform, h.boundAt, h.pinAt]

theorem SameChecks.bind {s s' : State} (hs : SameChecks s s') (h : HandleField) (p : PinId) :
    SameEffect (.bind h p) s s' := by
  unfold SameEffect
  simp only [exec_bind, execBind, hs.badHandle, hs.boundAt, hs.pinsWritten, hs.pinInUse]
  split
  · exact .inl ⟨_, .report _ .badHandle (by decide), rfl, rfl⟩
  split
  · exact .inl ⟨_, .report _ .alreadyBound (by decide), rfl, rfl⟩
  split
  · exact .inr ⟨_, rfl, rfl⟩
  split
  · exact .inl ⟨_, .report _ .pinInUse (by decide), rfl, rfl⟩
  · exact .inl ⟨_, .bind h p, rfl, rfl⟩

theorem SameChecks.configure {s s' : State} (hs : SameChecks s s') (h : HandleField) (f : BitVec 32) :
    SameEffect (.configure h f) s s' := by
  unfold SameEffect
  simp only [exec_configure, execConfigure, hs.badHandle, hs.boundAt, hs.pinAt, hs.pinsWritten, hs.platform]
  split
  · exact .inl ⟨_, .report _ .badHandle (by decide), rfl, rfl⟩
  split
  · exact .inl ⟨_, .report _ .notBound (by decide), rfl, rfl⟩
  split
  · exact .inr ⟨_, rfl, rfl⟩
  split
  · exact .inl ⟨_, .report _ .unsupportedPin (by decide), rfl, rfl⟩
  split
  · exact .inl ⟨_, .report _ .freqRange (by decide), rfl, rfl⟩
  split
  · exact .inr ⟨_, rfl, rfl⟩
  · exact .inl ⟨_, .configure h f _ _, rfl, rfl⟩

/-- The shared checks, before gates that are the command's own. -/
theorem SameChecks.gating {s s' : State} (hs : SameChecks s s') {i : Instr} {h : HandleField} {gs : List (WaitKind × Nat)}
    (hi : ∀ s, exec i s = gated h (fun p ch s => retireWith .ok 0 (gates h.toNat p ch gs s)) s) : SameEffect i s s' := by
  unfold SameEffect
  simp only [hi, gated, hs.badHandle, hs.boundAt, hs.cfgAt, hs.pinAt, hs.platform]
  split
  · exact .inl ⟨_, .report _ .badHandle (by decide), rfl, rfl⟩
  split
  · exact .inl ⟨_, .report _ .notBound (by decide), rfl, rfl⟩
  split
  · exact .inl ⟨_, .raise _ .notConfigured, rfl, rfl⟩
  split
  · exact .inr ⟨_, rfl, rfl⟩
  split
  · exact .inr ⟨_, rfl, rfl⟩
  · exact .inl ⟨_, .gates _ h _ _ gs, rfl, rfl⟩

theorem SameChecks.sameEffect {s s' : State} (hs : SameChecks s s') (i : Instr) : SameEffect i s s' := by
  cases i with
  | bind h p => exact hs.bind h p
  | configure h f => exact hs.configure h f
  | mark h d => exact hs.gating (gs := [(.mark, d.toNat)]) (exec_mark h d)
  | space h d => exact hs.gating (gs := [(.space, d.toNat)]) (exec_space h d)
  | sendByte h v m z o => exact hs.gating (exec_sendByte h v m z o)
  | reverseBits v => exact .inl ⟨_, .reverse _ (rev8 v), exec_reverseBits v s, exec_reverseBits v s'⟩

/-! ### What no command reads -/

theorem SameButObserved.sameChecks {s s' : State} (h : SameButObserved s s') : SameChecks s s' := by
  rw [h]
  exact ⟨rfl, rfl, rfl, rfl⟩

/-- Gates keep a relation of states that each gate keeps. -/
theorem gates_rel {R : State → State → Prop} {h : Nat} {p : PinId} {ch : Chan}
    (hg : ∀ kind d s s', R s s' → R (gate h p ch kind d s) (gate h p ch kind d s')) (gs : List (WaitKind × Nat))
    {s s' : State} (hs : R s s') : R (gates h p ch gs s) (gates h p ch gs s') := by
  induction gs generalizing s s' with
  | nil => exact hs
  | cons g gs ih => exact ih (hg g.1 g.2 s s' hs)

theorem SameButObserved.gates {s s' : State} (hs : SameButObserved s s') (h : Nat) (p : PinId) (ch : Chan)
    (gs : List (WaitKind × Nat)) : SameButObserved (gates h p ch gs s) (gates h p ch gs s') := by
  refine gates_rel (fun kind d s s' hs => ?_) gs hs
  rw [hs]
  rfl

theorem SameButObserved.retireWith {s s' : State} (hs : SameButObserved s s') (e : Status) (v : Byte) :
    SameButObserved (retireWith e v s) (retireWith e v s') := by
  rw [hs]
  rfl

/-- Each transition keeps the agreement, and writes the same events and response to both states. -/
theorem Effect.observed {i : Instr} {f : State → State} (hf : Effect i f) {s s' : State} (hs : SameButObserved s s') :
    SameButObserved (f s) (f s') ∧
      ∃ evs, (f s).trace = s.trace ++ evs ∧ (f s').trace = s'.trace ++ evs ∧
        ((f s).cpc = s.cpc + 1 → (f s').resp = (f s).resp) := by
  cases hf with
  | report => exact ⟨hs.retireWith _ _, [], (List.append_nil _).symm, (List.append_nil _).symm, fun _ => rfl⟩
  | raise =>
    refine ⟨?_, [], (List.append_nil _).symm, (List.append_nil _).symm, fun hc => absurd hc (Nat.succ_ne_self _).symm⟩
    rw [hs]
    rfl
  | bind h p =>
    refine ⟨?_, [], (List.append_nil _).symm, (List.append_nil _).symm, fun _ => rfl⟩
    rw [hs]
    rfl
  | configure h f p ch =>
    refine ⟨?_, [], by simp, by simp, fun _ => rfl⟩
    rw [hs]
    rfl
  | gates _ h p ch gs =>
    have hcpc : s'.cpc = s.cpc := by rw [hs]
    refine ⟨(hs.gates h.toNat p ch gs).retireWith .ok 0, gateEvents s.cpc h.toNat p gs, gates_trace h.toNat p ch gs s, ?_,
      fun _ => rfl⟩
    rw [← hcpc]
    exact gates_trace h.toNat p ch gs s'
  | reverse => exact ⟨hs.retireWith _ _, [], (List.append_nil _).symm, (List.append_nil _).symm, fun _ => rfl⟩

/-- Settles O53: the checks read none of the four, and no transition's other writes depend on them. -/
theorem commandsDoNotReadPhase : Obligations.CommandsDoNotReadPhase := by
  intro i s s' hs
  rcases hs.sameChecks.sameEffect i with ⟨f, hf, ht, ht'⟩ | ⟨r, hr, hr'⟩
  · refine ⟨fun t h => ?_, fun r h => (by cases ht.symm.trans h)⟩
    cases ht.symm.trans h
    obtain ⟨hobs, evs, htrace, htrace', hresp⟩ := hf.observed hs
    exact ⟨_, evs, ht', hobs, htrace, htrace', hresp⟩
  · refine ⟨fun t h => (by cases hr.symm.trans h), fun r' h => ?_⟩
    cases hr.symm.trans h
    exact hr'

/-! ### Ticks and commands (R58) -/

theorem gates_setPhase (h : Nat) (p : PinId) (ch : Chan) (gs : List (WaitKind × Nat)) (s : State) (k v : Nat) :
    gates h p ch gs (s.setPhase k v) = (gates h p ch gs s).setPhase k v := by
  refine gates_rel (R := fun s s' => s' = s.setPhase k v) (fun kind d s s' hs => ?_) gs rfl
  rw [hs]
  rfl

/-- A write of `PHASE` commutes with every transition but that of `CONFIGURE`. -/
theorem Effect.setPhase {i : Instr} {f : State → State} (hf : Effect i f) (hi : ∀ h g, i ≠ .configure h g) (s : State)
    (k v : Nat) : f (s.setPhase k v) = (f s).setPhase k v := by
  cases hf with
  | report => rfl
  | raise => rfl
  | bind => rfl
  | configure h g => exact absurd rfl (hi h g)
  | gates _ h p ch gs => exact congrArg (retireWith .ok 0) (gates_setPhase h.toNat p ch gs s k v)
  | reverse => rfl

theorem exec_setPhase {i : Instr} (hi : ∀ h f, i ≠ .configure h f) {s t : State} (ht : exec i s = .next t) (k v : Nat) :
    exec i (s.setPhase k v) = .next (t.setPhase k v) := by
  have hs : SameChecks s (s.setPhase k v) := ⟨rfl, rfl, rfl, rfl⟩
  rcases hs.sameEffect i with ⟨f, hf, h, h'⟩ | ⟨r, hr, -⟩
  · cases h.symm.trans ht
    rw [h', hf.setPhase hi]
  · cases hr.symm.trans ht

/-- Settles O54: the tick writes `PHASE` alone, and the command leaves all that the tick reads. -/
theorem ticksCommuteWithCommands : Obligations.TicksCommuteWithCommands := by
  intro i k s t s' hi ht hk
  obtain ⟨⟨hmode, htop, hphase⟩, -⟩ := (exec_ends ht).frame_of_not_configure hi
  have hplatform := (exec_ends ht).sameOutside.1
  have hmodeAt : t.modeAt k = s.modeAt k := by rw [State.modeAt, hmode]; rfl
  have htopAt : t.topAt k = s.topAt k := by rw [State.topAt, htop]; rfl
  have hphaseAt : t.phaseAt k = s.phaseAt k := by rw [State.phaseAt, hphase]; rfl
  rcases tick_cases hk with ⟨hm, rfl⟩ | ⟨top, hm, htop, hz, rfl⟩
  · exact ⟨t, ht, tick_stopped (hmodeAt.trans hm)⟩
  · refine ⟨_, exec_setPhase hi ht k _, ?_⟩
    rw [tick_running (hmodeAt.trans hm) (htopAt.trans htop) (by rwa [hplatform]), hplatform, hphaseAt]

end Sys2Proof.Machine
end

section
/-! PROOFS. Runs from reset: every finite run ends well or is bad (R201), and the boot sequence emits (R193), with no tick
between its commands and under every interleaving of ticks (R34). -/

namespace Sys2Proof.Machine

/-! ### The end of a run (R201) -/

theorem step_wf {s t : State} (hst : step s = .next t) (hp : s.platform.wf = true) : t.platform.wf = true := by
  rwa [(streamAndPlatformAreConstant s t hst).2]

theorem runFor_of_fault {s : State} {r : Fault} (h : step s = .fault r) (n : Nat) : runFor (n + 1) s = .fault r := by
  rw [runFor, h]

/-- The run answers a state in which it has ended well or is bad, or it stops in the faulted state. -/
def RunEnds (n : Nat) (s : State) : Prop :=
  (∃ t, runFor n s = .next t ∧ (t.endsWell ∨ t.isBad)) ∨ runFor n s = .fault .blockStopped

theorem RunEnds.of_step {n : Nat} {s t : State} (hst : step s = .next t) (h : RunEnds n t) : RunEnds (n + 1) s := by
  rwa [RunEnds, runFor_of_next hst]

/-- A faulted block ticks on, or stops. -/
theorem runEnds_of_faulted (n : Nat) {s : State} (hi : s.Inv) (hp : s.platform.wf = true) (hf : s.fault ≠ none) :
    RunEnds n s := by
  induction n generalizing s with
  | zero => exact .inl ⟨s, rfl, .inr hf⟩
  | succ n ih =>
    rcases hi.step_next_or_stops hp with ⟨t, hst⟩ | ⟨-, -, hstop⟩
    · have hft : t.fault = s.fault := by rw [step_of_faulted_frame hf hst]
      exact .of_step hst (ih (stepKeepsInvariant s t hi hst) (step_wf hst hp) (hft ▸ hf))
    · exact .inr (runFor_of_fault hstop n)

/-- The turns and the words that are left. -/
def stepsLeft (s : State) : Nat := s.turns.length + (s.stream.length - s.cpc)

/-- A step of a block that is not faulted after it takes a turn or a word, when one is left. -/
theorem stepsLeft_step {s t : State} (hst : step s = .next t) (ht : t.fault = none) : stepsLeft t ≤ stepsLeft s - 1 := by
  obtain ⟨hp, hs⟩ := step_steps hst
  obtain ⟨-, hstream, hturns⟩ := hs.sameOutside
  have hlen : t.turns.length = s.turns.length - 1 := by rw [hturns]; exact List.length_tail
  rw [stepsLeft, stepsLeft, hstream, hlen, State.setTurns_stream]
  rcases step_keeps_or_retires hst with ⟨hk, hready⟩ | ⟨⟨-, -, hlt⟩, e, v, hr⟩
  · rw [hk.cpc]
    cases hts : s.turns with
    | cons => simp only [List.length_cons]; omega
    | nil =>
      have hh : s.turns.head?.getD .command = .command := by simp [hts]
      have hf : s.fault = none := by
        by_contra hf
        cases (step_of_faulted hp hf hh).symm.trans hst
      have hend : ¬s.cpc < s.stream.length := fun hlt => hready ⟨hh, hf, hlt⟩ ht
      simp only [List.length_nil]
      omega
  · rw [hr.cpc]
    omega

theorem runEnds_of_stepsLeft {n : Nat} {s : State} (hi : s.Inv) (hp : s.platform.wf = true) (hn : stepsLeft s ≤ n) :
    RunEnds n s := by
  induction n generalizing s with
  | zero =>
    have hcpc : s.cpc = s.stream.length := by
      have := hi.cpcInStream
      rw [stepsLeft] at hn
      omega
    by_cases hf : s.fault = none
    · exact .inl ⟨s, rfl, .inl ⟨hcpc, hf⟩⟩
    · exact .inl ⟨s, rfl, .inr hf⟩
  | succ n ih =>
    rcases hi.step_next_or_stops hp with ⟨t, hst⟩ | ⟨-, -, hstop⟩
    · have hi' := stepKeepsInvariant s t hi hst
      by_cases hf : t.fault = none
      · exact .of_step hst (ih hi' (step_wf hst hp) (by have := stepsLeft_step hst hf; omega))
      · exact .of_step hst (runEnds_of_faulted n hi' (step_wf hst hp) hf)
    · exact .inr (runFor_of_fault hstop n)

/-- Settles O55, by induction on the number of steps: each takes a turn or a word, until none is left or the block is
faulted. -/
theorem runEndsWellOrBad : Obligations.RunEndsWellOrBad := by
  intro P ws ts hp
  rcases runEnds_of_stepsLeft (n := ts.length + ws.length) (resetMeetsInvariant P ws ts) hp (by simp [stepsLeft]) with
    ⟨t, ht, hend⟩ | hstop
  · rw [ht]
    exact hend
  · rw [hstop]

/-! ### The boot sequence with no tick between its commands (R193) -/

/-- What the boot sequence leaves in every register but `PHASE`. -/
structure Booted (P : Platform) (h : HandleField) (p : PinId) (f d : BitVec 32) (ch : Chan) (u : State) : Prop where
  platform : u.platform = P
  resp : u.resp = ⟨0, 0⟩
  errlog : u.errlog = []
  fault : u.fault = none
  cpc : u.cpc = 3
  en : u.enAt ch = true
  trace : u.trace = [waitEvent 2 h.toNat p .mark d.toNat]
  dir : u.dirAt p = .out
  mode : u.modeAt ch.timer = .carrier
  top : u.topAt ch.timer = some (divide P f.toNat)
  cmp : u.cmpAt ch = some (divide P f.toNat / 3)

/-- The pin of a booted block carries the carrier. -/
theorem Booted.pinOut {P : Platform} {h : HandleField} {p : PinId} {f d : BitVec 32} {ch : Chan} {u : State}
    (hu : Booted P h p f d ch u) (hch : chanOf P p = some ch) :
    pinOut u p = .ok (.bit (carrierBit P.slope (u.phaseAt ch.timer) (divide P f.toNat) (divide P f.toNat / 3))) := by
  have hch' : chanOf u.platform p = some ch := by rwa [hu.platform]
  rw [pinOut_on hu.dir hch' hu.en hu.mode hu.top hu.cmp, hu.platform]

theorem execAll_of_next {i : Instr} {s t : State} (h : exec i s = .next t) (is : List Instr) :
    execAll (i :: is) s = execAll is t := by
  rw [execAll, h]

section Boot
variable {P : Platform} {h : HandleField} {p : PinId} {f : BitVec 32} {ch : Chan}

theorem bindPasses_resetOn (hr : h.toNat < P.numHandles) (ws : List Word) (ts : List Turn) :
    BindPasses (State.resetOn P ws ts) h p where
  inRange := hr
  free := rfl
  written := (resetMeetsInvariant P ws ts).pinsWritten
  unused := by simp [State.pinInUse]

theorem configurePasses_of_bind {s : State} (hi : s.Inv) (hb : BindPasses s h p) (hch : chanOf s.platform p = some ch)
    (hf : freqOk s.platform ch.timer f.toNat = true) :
    ConfigurePasses (retireWith .ok 0 (commitBind h.toNat p s)) h f p ch where
  inRange := hb.inRange
  bound := by simp
  pin := by simp
  chan := hch
  freq := hf
  written := (hi.commitBind hb).pinsWritten

theorem passes_of_configure {s : State} (hc : ConfigurePasses s h f p ch) :
    Passes (retireWith .ok 0 (commitConfigure h.toNat p ch f.toNat s)) h p ch where
  inRange := by simpa using hc.inRange
  bound := by simpa using hc.bound
  cfg := by simp
  pin := by simpa using hc.pin
  chan := by simpa using hc.chan

/-- Each command of the boot sequence passes its checks in the state that the one before it leaves. -/
theorem execAll_boot (hr : h.toNat < P.numHandles) (hch : chanOf P p = some ch)
    (hf : freqOk P ch.timer f.toNat = true) (d : BitVec 32) (ws : List Word) (ts : List Turn) :
    ∃ u, execAll [.bind h p, .configure h f, .mark h d] (State.resetOn P ws ts) = .next u ∧
      Booted P h p f d ch u ∧ u.phaseAt ch.timer = 0 := by
  have hbind := bindPasses_resetOn (p := p) hr ws ts
  have hconf := configurePasses_of_bind (resetMeetsInvariant P ws ts) hbind hch hf
  have hmark := passes_of_configure hconf
  refine ⟨_, (execAll_of_next (exec_bind_passes hbind) _).trans ((execAll_of_next (exec_configure_passes hconf) _).trans
    (execAll_of_next (exec_mark_passes hmark d) _)), ?_, by simp⟩
  constructor <;> simp [compareOf_eq]

end Boot

/-- Settles O56: at phase 0 the carrier is active, for a third of the top value is at least 1. -/
theorem bootSequenceEmits : Obligations.BootSequenceEmits := by
  intro P ws ts h p f d ch hr hch hf
  obtain ⟨u, hu, hboot, hphase⟩ := execAll_boot hr hch hf d ws ts
  obtain ⟨-, hthree, -⟩ := (freqOk_iff _ _ _).mp hf
  have hactive : 0 < divide P f.toNat / 3 := Nat.div_pos hthree (by decide)
  refine ⟨u, hu, hboot.resp, hboot.errlog, hboot.fault, hboot.cpc, hboot.en, hboot.trace, ?_⟩
  rw [hboot.pinOut hch, hphase]
  cases P.slope <;> simp [carrierBit, hactive]

/-! ### Commands and ticks in any order -/

/-- The states agree on all but `PHASE` and the turns. -/
def SameButClock (s s' : State) : Prop := s' = { s with turns := s'.turns, phase := s'.phase }

theorem SameButClock.refl (s : State) : SameButClock s s := rfl

theorem SameButClock.sameChecks {s s' : State} (h : SameButClock s s') : SameChecks s s' := by
  rw [h]
  exact ⟨rfl, rfl, rfl, rfl⟩

theorem SameButClock.retireWith {s s' : State} (hs : SameButClock s s') (e : Status) (v : Byte) :
    SameButClock (retireWith e v s) (retireWith e v s') := by
  rw [hs]
  rfl

/-- Each transition of a command keeps the agreement. -/
theorem Effect.sameButClock {i : Instr} {f : State → State} (hf : Effect i f) {s s' : State} (hs : SameButClock s s') :
    SameButClock (f s) (f s') := by
  cases hf with
  | report => exact hs.retireWith _ _
  | raise => rw [hs]; rfl
  | bind => rw [hs]; rfl
  | configure => rw [hs]; rfl
  | gates _ h p ch gs =>
    refine SameButClock.retireWith (gates_rel (fun kind d s s' hs => ?_) gs hs) .ok 0
    rw [hs]
    rfl
  | reverse => exact hs.retireWith _ _

theorem exec_sameButClock {i : Instr} {s s' t : State} (hs : SameButClock s s') (ht : exec i s = .next t) :
    ∃ t', exec i s' = .next t' ∧ SameButClock t t' := by
  rcases hs.sameChecks.sameEffect i with ⟨f, hf, h, h'⟩ | ⟨r, hr, -⟩
  · cases h.symm.trans ht
    exact ⟨_, h', hf.sameButClock hs⟩
  · cases hr.symm.trans ht

theorem tick_frame {k : Nat} {s t : State} (h : tick k s = .next t) : t = { s with phase := t.phase } := by
  rcases tick_cases h with ⟨-, rfl⟩ | ⟨top, -, -, -, rfl⟩
  · rfl
  · rfl

/-- A command that leaves the block unfaulted has retired. -/
theorem Ends.retired_of_fault_eq_none {i : Instr} {s t : State} (he : Ends s i t) (ht : t.fault = none) :
    s.fault = none ∧ t.cpc = s.cpc + 1 := by
  rcases he.raises_or_retires with rfl | ⟨e, v, hr⟩
  · cases ht
  · exact ⟨hr.fault.symm.trans ht, hr.cpc⟩

theorem execAll_cons {i : Instr} {is : List Instr} {s u : State} (h : execAll (i :: is) s = .next u) :
    ∃ t, exec i s = .next t ∧ execAll is t = .next u := by
  rw [execAll] at h
  split at h
  · next t ht => exact ⟨t, ht, h⟩
  · cases h
  · cases h

theorem fault_eq_none_of_execAll {is : List Instr} {s u : State} (h : execAll is s = .next u) (hu : u.fault = none) :
    s.fault = none := by
  induction is generalizing s with
  | nil =>
    cases h
    exact hu
  | cons i is ih =>
    obtain ⟨t, ht, h⟩ := execAll_cons h
    exact ((exec_ends ht).retired_of_fault_eq_none (ih h)).1

/-- The host's next words are those of the commands. -/
def Feeds (s : State) (is : List Instr) : Prop := ∃ ws, s.stream.drop s.cpc = is.map encode ++ ws

theorem Feeds.fetch {s : State} {i : Instr} {is : List Instr} (h : Feeds s (i :: is)) : fetch s = some (encode i) := by
  obtain ⟨ws, hws⟩ := h
  rw [Machine.fetch, ← List.head?_drop, hws]
  rfl

theorem Feeds.next {s t : State} {i : Instr} {is : List Instr} (h : Feeds s (i :: is)) (hstream : t.stream = s.stream)
    (hcpc : t.cpc = s.cpc + 1) : Feeds t is := by
  obtain ⟨ws, hws⟩ := h
  refine ⟨ws, ?_⟩
  rw [hstream, hcpc, ← List.tail_drop, hws]
  rfl

/-- A run of commands among ticks ends as the commands alone do, but for `PHASE` and the turns. -/
theorem runFor_interleaved (ts : List Turn) {is : List Instr} {b s u : State} (hi : s.Inv) (hp : s.platform.wf = true)
    (hts : s.turns = ts) (hs : SameButClock b s) (hfeed : Feeds s is) (hu : execAll is b = .next u)
    (hf : u.fault = none) (hcount : ts.count .command = is.length) :
    ∃ t, runFor ts.length s = .next t ∧ t.Inv ∧ t.turns = [] ∧ SameButClock u t := by
  induction ts generalizing is b s with
  | nil =>
    obtain rfl := List.length_eq_zero_iff.mp hcount.symm
    cases hu
    exact ⟨s, rfl, hi, hts, hs⟩
  | cons x ts ih =>
    cases x with
    | tick k =>
      obtain ⟨t, ht⟩ := (hi.setTurns ts).tick_next k
      have hst : step s = .next t := (step_of_tick hp hts).trans ht
      have hframe := tick_frame ht
      have hst' : SameButClock b t := by rw [hframe, hs]; rfl
      have hfeed' : Feeds t is := by rw [hframe]; exact hfeed
      rw [List.length_cons, runFor_of_next hst]
      exact ih (stepKeepsInvariant s t hi hst) (step_wf hst hp) (by rw [hframe]; rfl) hst' hfeed' hu
        (by simpa using hcount)
    | command =>
      cases is with
      | nil => simp at hcount
      | cons i is =>
        obtain ⟨b', hb', hu⟩ := execAll_cons hu
        obtain ⟨hbf, hbcpc⟩ := (exec_ends hb').retired_of_fault_eq_none (fault_eq_none_of_execAll hu hf)
        have hsf : s.fault = none := by rw [hs]; exact hbf
        obtain ⟨t, ht, hbt⟩ := exec_sameButClock (s' := s.setTurns ts) (by rw [hs]; rfl) hb'
        have hst : step s = .next t := by
          rw [step_of_command hp (by simp [hts]), turnsLeft, hts]
          exact (commandStep_executes (s := s.setTurns ts) hsf hfeed.fetch (decode_encode i)).trans ht
        obtain ⟨-, hstream, hturns⟩ := (exec_ends ht).sameOutside
        have hcpc : t.cpc = s.cpc + 1 := by rw [hbt, hs]; exact hbcpc
        rw [List.length_cons, runFor_of_next hst]
        exact ih (stepKeepsInvariant s t hi hst) (step_wf hst hp) hturns hbt (hfeed.next hstream hcpc) hu
          (by simpa using hcount)

theorem Booted.of_sameButClock {P : Platform} {h : HandleField} {p : PinId} {f d : BitVec 32} {ch : Chan} {u t : State}
    (hu : Booted P h p f d ch u) (hs : SameButClock u t) : Booted P h p f d ch t := by
  rw [hs]
  exact { hu with }

/-- Settles O59: the run ends as the commands alone do, but for `PHASE`, which the invariant keeps within the period. -/
theorem bootSequenceEmitsUnderEveryInterleaving : Obligations.BootSequenceEmitsUnderEveryInterleaving := by
  intro P ws ts h p f d ch hp hr hch hf hcount
  obtain ⟨u, hu, hboot, -⟩ := execAll_boot hr hch hf d
    (encode (.bind h p) :: encode (.configure h f) :: encode (.mark h d) :: ws) ts
  obtain ⟨t, ht, hi, hturns, hs⟩ :=
    runFor_interleaved ts (resetMeetsInvariant P _ ts) hp rfl (.refl _) ⟨ws, rfl⟩ hu hboot.fault hcount
  have hboot' := hboot.of_sameButClock hs
  obtain ⟨top, htop, -, -, hphase⟩ := hi.running ch.timer hboot'.mode
  cases hboot'.top.symm.trans htop
  rw [hboot'.platform] at hphase
  exact ⟨t, ht, hturns, hboot'.resp, hboot'.errlog, hboot'.fault, hboot'.cpc, hboot'.en, hboot'.trace, hphase,
    hboot'.pinOut hch⟩

end Sys2Proof.Machine
end
